-- ==== Sys2Proof/Word.lean ====
section
/-! DEFINITION. The byte of the wire, and the two clamps the manual uses. -/

namespace Sys2Proof

/-- A character of a serial input, or a byte of a frame. -/
abbrev Byte := BitVec 8

/-- "Clamped": a value outside a range is replaced by the nearer end of it (0.5.1). -/
def clampInt (lo hi x : Int) : Int := if x < lo then lo else if hi < x then hi else x

/-- The magnitude of a signed quantity. -/
def magnitude (x : Int) : Nat := x.natAbs

end Sys2Proof
end

