-- ==== Sys2Proof/Syntax.lean ====
section
/-! DEFINITION. The commands of the block: one constructor of `Instr` for each row of spec/opcode_table.json. -/

namespace Sys2Proof

/-- The requests of Table 9-2. -/
inductive ReqCode
  | setTime | getTime | getTimeStatus
  | readLink | unlockCapture
  | defineObject | amendObject | retireObject | readObject | findObjects
  | loadPath | amendTimingPoint | shiftPath | copyPath | repeatPath | armPath | cancelPath | retirePath
  | readPath | findPaths | readBerthQueue | digestPlan
  | dialSet | readLine
  | nextCondition | ackCondition | readConditions
  | setWatch | readWatch | getStatus | clearEditFault
  | setSetting | readSettings | saveSettings
  deriving DecidableEq, Repr

/-- The request a code byte names (Table 11-3). -/
def ReqCode.named : Nat → Option ReqCode
  | 0x01 => some .setTime
  | 0x02 => some .getTime
  | 0x03 => some .getTimeStatus
  | 0x10 => some .readLink
  | 0x11 => some .unlockCapture
  | 0x20 => some .defineObject
  | 0x21 => some .amendObject
  | 0x22 => some .retireObject
  | 0x23 => some .readObject
  | 0x24 => some .findObjects
  | 0x30 => some .loadPath
  | 0x31 => some .amendTimingPoint
  | 0x32 => some .shiftPath
  | 0x33 => some .copyPath
  | 0x34 => some .repeatPath
  | 0x35 => some .armPath
  | 0x36 => some .cancelPath
  | 0x37 => some .retirePath
  | 0x38 => some .readPath
  | 0x39 => some .findPaths
  | 0x3A => some .readBerthQueue
  | 0x3B => some .digestPlan
  | 0x40 => some .dialSet
  | 0x41 => some .readLine
  | 0x50 => some .nextCondition
  | 0x51 => some .ackCondition
  | 0x52 => some .readConditions
  | 0x60 => some .setWatch
  | 0x61 => some .readWatch
  | 0x62 => some .getStatus
  | 0x63 => some .clearEditFault
  | 0x70 => some .setSetting
  | 0x71 => some .readSettings
  | 0x72 => some .saveSettings
  | _ => none

/-- The code byte of a request (Table 11-3). -/
def ReqCode.code : ReqCode → Nat
  | .setTime => 0x01
  | .getTime => 0x02
  | .getTimeStatus => 0x03
  | .readLink => 0x10
  | .unlockCapture => 0x11
  | .defineObject => 0x20
  | .amendObject => 0x21
  | .retireObject => 0x22
  | .readObject => 0x23
  | .findObjects => 0x24
  | .loadPath => 0x30
  | .amendTimingPoint => 0x31
  | .shiftPath => 0x32
  | .copyPath => 0x33
  | .repeatPath => 0x34
  | .armPath => 0x35
  | .cancelPath => 0x36
  | .retirePath => 0x37
  | .readPath => 0x38
  | .findPaths => 0x39
  | .readBerthQueue => 0x3A
  | .digestPlan => 0x3B
  | .dialSet => 0x40
  | .readLine => 0x41
  | .nextCondition => 0x50
  | .ackCondition => 0x51
  | .readConditions => 0x52
  | .setWatch => 0x60
  | .readWatch => 0x61
  | .getStatus => 0x62
  | .clearEditFault => 0x63
  | .setSetting => 0x70
  | .readSettings => 0x71
  | .saveSettings => 0x72

/-- A request frame after its code byte, as a host shifts it in (R168): the tag, the body length field, and every
body byte, each whole (log 30). -/
structure Frame where
  tag : Byte
  len : BitVec 16
  body : List Byte
  deriving DecidableEq, Repr

/-- How much of its transaction a request's command is (R170): between the end of the WRITE transfer and the moment
the response is ready, the frame is the request in work, and the part may take other events (log 6). -/
inductive Phase
  /-- The WRITE transfer, and the service in the same event. -/
  | whole
  /-- The WRITE transfer alone: the frame, once admitted, stays in work. -/
  | write
  /-- The service of the frame in work, and its response. READ WATCH and GET STATUS ask several owners in turn: of these
  it is one owner's event, the last of which makes the response ready (R171, R178, R179). -/
  | service
  deriving DecidableEq, Repr

/-- The operand of a request's command. -/
structure ReqFrame extends Frame where
  phase : Phase
  deriving DecidableEq, Repr

/-- The same frame at a phase of its transaction. -/
def ReqFrame.at (f : ReqFrame) (phase : Phase) : ReqFrame := { f with phase := phase }

/-- A transfer that delivers no request of Table 9-2 (R167, R168, R171). One that delivers a frame has phases as a
request has. A transfer, here and in a request's frame, holds whole bytes: that a byte behind the command byte which SL_SEL_N
cuts short counts for nothing is the model's choice (log 30). -/
inductive OtherTransfer
  /-- SL_SEL_N rises before eight clock edges have completed the command byte. -/
  | incomplete
  /-- A command byte other than WRITE (0x5A) and READ (0xA5), with the count of bytes clocked after it. -/
  | otherCommand (command : { b : Byte // b ≠ 0x5A ∧ b ≠ 0xA5 }) (clocked : Nat)
  /-- A WRITE transfer with no byte after the command byte. -/
  | emptyWrite
  /-- A WRITE transfer of one byte: the code. -/
  | short1 (code : Byte) (phase : Phase)
  /-- A WRITE transfer of two bytes: the code and the tag. -/
  | short2 (code tag : Byte) (phase : Phase)
  /-- A WRITE transfer of three bytes: the code, the tag and half of the length. -/
  | short3 (code tag lenHigh : Byte) (phase : Phase)
  /-- A whole header whose code names no request. -/
  | unknownCode (code : { b : Byte // ReqCode.named b.toNat = none }) (frame : ReqFrame)
  deriving DecidableEq, Repr

/-- What a line's current sense reads (7.4). -/
inductive Sense
  | opened | normal | short
  deriving DecidableEq, Repr

/-- The commands, one for each row of spec/opcode_table.json, in the table's order. -/
inductive Instr
  | powerOn
  | restartTaken
  | restartRelease
  /-- The check byte of a reference message arrives. -/
  | refMsgComplete (byte : Byte)
  | refMsgInterByteTimeout
  | refMsgBadCharacter
  | refPpsEdge
  | tcTakesTimeAnnouncement
  | scTakesTimeAnnouncement
  | referenceGapExpiry
  | holdoverLimitExpiry
  | endOfRangeHold
  | setTime (frame : ReqFrame)
  | getTime (frame : ReqFrame)
  | getTimeStatus (frame : ReqFrame)
  /-- The last check byte of a telegram arrives. -/
  | telegramReceived (link : Fin 4) (byte : Byte)
  | linkInterByteTimeout (link : Fin 4)
  | linkBadCharacter (link : Fin 4)
  /-- A length byte outside 4 to 12 arrives. -/
  | lengthByteRejected (link : Fin 4) (byte : Byte)
  | silenceExpiry (link : Fin 4)
  | unlockCapture (frame : ReqFrame)
  | readLink (frame : ReqFrame)
  | defineObject (frame : ReqFrame)
  | amendObject (frame : ReqFrame)
  | retireObject (frame : ReqFrame)
  | readObject (frame : ReqFrame)
  | findObjects (frame : ReqFrame)
  | takeTelegramEntry (link : Fin 4)
  | takeGapMarker (link : Fin 4)
  | throwLimitExpiry (object : Nat)
  | clearLimitExpiry (object : Nat)
  | unmatchedAnswer
  | berthEvent
  | loadPath (frame : ReqFrame)
  | amendTimingPoint (frame : ReqFrame)
  | shiftPath (frame : ReqFrame)
  | copyPath (frame : ReqFrame)
  | repeatPath (frame : ReqFrame)
  | repeatCopyCreation
  | armPath (frame : ReqFrame)
  | cancelPath (frame : ReqFrame)
  | retirePath (frame : ReqFrame)
  | readPath (frame : ReqFrame)
  | findPaths (frame : ReqFrame)
  | readBerthQueue (frame : ReqFrame)
  | digestPlan (frame : ReqFrame)
  | digestWalkStep
  | activation
  | overdueService
  | lostService
  | retireDeadlineExpiry
  | dialTargetChange
  | impulseSense (line : Fin 4) (sense : Sense)
  | impulseCompletion (line : Fin 4)
  | gapEnd (line : Fin 4)
  | faultRetryExpiry (line : Fin 4)
  | dialSet (frame : ReqFrame)
  | readLine (frame : ReqFrame)
  | nextCondition (frame : ReqFrame)
  | ackCondition (frame : ReqFrame)
  | readConditions (frame : ReqFrame)
  /-- A READ transfer that clocks out this many bytes after its command byte. -/
  | readResponse (clocked : Nat)
  | unknownRequestFrame (transfer : OtherTransfer)
  | setWatch (frame : ReqFrame)
  | readWatch (frame : ReqFrame)
  | getStatus (frame : ReqFrame)
  | clearEditFault (frame : ReqFrame)
  | setSetting (frame : ReqFrame)
  | readSettings (frame : ReqFrame)
  | saveSettings (frame : ReqFrame)
  /-- The store write ends; the flag says whether the image and check read back agree with the snapshot. -/
  | saveWriteComplete (agrees : Bool)
  | linkCharacterReceived (link : Fin 4) (byte : Byte)
  | refMsgCharacter (byte : Byte)
  deriving DecidableEq, Repr

/-- The command of a request of Table 9-2. -/
def commandOf : ReqCode → ReqFrame → Instr
  | .setTime => .setTime
  | .getTime => .getTime
  | .getTimeStatus => .getTimeStatus
  | .readLink => .readLink
  | .unlockCapture => .unlockCapture
  | .defineObject => .defineObject
  | .amendObject => .amendObject
  | .retireObject => .retireObject
  | .readObject => .readObject
  | .findObjects => .findObjects
  | .loadPath => .loadPath
  | .amendTimingPoint => .amendTimingPoint
  | .shiftPath => .shiftPath
  | .copyPath => .copyPath
  | .repeatPath => .repeatPath
  | .armPath => .armPath
  | .cancelPath => .cancelPath
  | .retirePath => .retirePath
  | .readPath => .readPath
  | .findPaths => .findPaths
  | .readBerthQueue => .readBerthQueue
  | .digestPlan => .digestPlan
  | .dialSet => .dialSet
  | .readLine => .readLine
  | .nextCondition => .nextCondition
  | .ackCondition => .ackCondition
  | .readConditions => .readConditions
  | .setWatch => .setWatch
  | .readWatch => .readWatch
  | .getStatus => .getStatus
  | .clearEditFault => .clearEditFault
  | .setSetting => .setSetting
  | .readSettings => .readSettings
  | .saveSettings => .saveSettings

end Sys2Proof
end

