-- ==== Sys2Proof/Decode.lean ====
section
/-! DEFINITION. Decoding of table words. The block has no instruction words: no row of
spec/opcode_table.json gives bits, so no word spells a command. -/

namespace Sys2Proof

/-- The command that a word of the table's bits spells: none, since no row gives bits. -/
def decodeTableWord (_nbits _w : Nat) : Option Instr := none

end Sys2Proof
end

