-- ==== Sys2Proof/Config.lean ====
section
/-! DEFINITION. What the manual fixes once for the part, and the free values: what it leaves open. -/

namespace Sys2Proof.Config

/-- Milliseconds of an operating day (0.5.2). -/
def msPerDay : Nat := 86400000

/-- Microseconds of an operating day (R1). -/
def usPerDay : Nat := 86400000000

/-- The last microsecond of day 65,535, where the end-of-range hold comes on (R2). -/
def lastUs : Nat := 65536 * usPerDay - 1

/-- The lock band, in µs (1.3). -/
def lockBand : Nat := 2000

/-- The step threshold, in µs (1.3). -/
def stepThreshold : Nat := 500000

/-- The reference gap, in µs of station time (R11). -/
def referenceGap : Nat := 3000000

/-- The longest gap between two bytes of a telegram or a reference message, in ms (R4, R26). -/
def interByteLimit : Nat := 20

/-- The places of an arrival queue (2.4). -/
def queuePlaces : Nat := 64

/-- The places of the Path Store (R84). -/
def storePlaces : Nat := 1024

/-- The entries of the timing-point pool (R86). -/
def poolEntries : Nat := 16384

/-- The rest before a cut impulse is retried, in ms (R142, R143). -/
def faultRetry : Nat := 60000

/-- The longest request body (R168). -/
def maxBody : Nat := 1024

/-! ### Free values. No body: nothing in Lean can evaluate one (log 1, log 7, log 19). -/

/-- The number of bytes of a field of a response whose width the manual does not give, by field (log 7). -/
opaque freeWidth : Nat → Nat

/-- The byte code of a named value that Table 11-1 does not number, by enumeration and place in it (log 7). -/
opaque freeCode : Nat → Nat → Nat

/-- Which of several due events is taken next on an empty queue, by a fresh count (log 1). -/
opaque freeChoice : Nat → Nat

/-- What a line's current sense reads when no command says so, by a fresh count (log 1). -/
opaque freeSense : Nat → Nat

/-- Whether a settings write verifies when no command says so, by a fresh count (log 1). -/
opaque freeVerify : Nat → Bool

/-- The station time of a gap start the manual states no value for, by a fresh count (log 19). -/
opaque freeGapMs : Nat → Nat

/-- The quality of a gap start the manual states no value for, by a fresh count (log 19). -/
opaque freeGapQuality : Nat → Nat

end Sys2Proof.Config
end

