-- ==== Sys2Proof/Machine/Store.lean ====
section
/-! DEFINITION. The two containers of State: a fixed number of like things, and records by number. -/

namespace Sys2Proof.Machine

/-- Exactly `n` like things: four links, four lines, sixteen watch slots, twenty-one classes. -/
abbrev Vec (α : Type) (n : Nat) := { l : List α // l.length = n }

def Vec.get {α : Type} {n : Nat} (v : Vec α n) (i : Fin n) : α := v.val[i.val]'(by omega)

def Vec.set {α : Type} {n : Nat} (v : Vec α n) (i : Fin n) (x : α) : Vec α n :=
  ⟨v.val.set i.val x, List.length_set.trans v.property⟩

def Vec.map {α β : Type} {n : Nat} (f : α → β) (v : Vec α n) : Vec β n :=
  ⟨v.val.map f, (List.length_map ..).trans v.property⟩

def Vec.fill {α : Type} (n : Nat) (x : α) : Vec α n := ⟨List.replicate n x, by simp⟩

/-- The four indexes of the links and of the lines. -/
def four : List (Fin 4) := [0, 1, 2, 3]

/-- Records by number, in strictly rising number order (`Store.Sorted`). -/
abbrev Store (α : Type) := List (Nat × α)

/-- The record at a number, when there is one. -/
def Store.get {α : Type} : Store α → Nat → Option α
  | [], _ => none
  | (k, v) :: t, n => if k = n then some v else Store.get t n

/-- The store with a record put at a number, in its place in the order. -/
def Store.set {α : Type} : Store α → Nat → α → Store α
  | [], n, v => [(n, v)]
  | (k, w) :: t, n, v =>
    if n < k then (n, v) :: (k, w) :: t
    else if n = k then (n, v) :: t
    else (k, w) :: Store.set t n v

/-- The store without the record of a number. -/
def Store.erase {α : Type} (m : Store α) (n : Nat) : Store α := m.filter fun e => e.1 ≠ n

/-- Every record changed by a function, in place. -/
def Store.mapVals {α : Type} (f : α → α) (m : Store α) : Store α := m.map fun e => (e.1, f e.2)

/-- The canonical form: numbers strictly rising, so that equal stores are equal lists. -/
def Store.Sorted {α : Type} (m : Store α) : Prop := m.Pairwise fun a b => a.1 < b.1

end Sys2Proof.Machine
end

