-- ==== Sys2Proof/Machine/State.lean ====
section
/-! DEFINITION. State: every piece of state the manual gives the part, by block (INVENTORY.md lists each
with its rule), the reasons a step could stop, and the state after reset. -/

namespace Sys2Proof.Machine

/-! ### Time and dates (0.5.2, 0.5.3, chapter 1) -/

/-- The quality of station time (Table 0-3). -/
inductive Quality
  | locked | holdover | unsync
  deriving DecidableEq, Repr

/-- The date kind, with the earliest possible date of a change learned after a gap (Table 0-3). -/
inductive DateKind
  | observed
  | afterGap (earliest : Nat)
  deriving DecidableEq, Repr

/-- A date record (0.5.3). `ms` is absolute station time in milliseconds. -/
structure Date where
  ms : Nat
  quality : Quality
  kind : DateKind
  deriving DecidableEq, Repr

/-- A station time with its quality: stale-since dates, gap starts, fault dates (chapter 11). -/
structure StationQ where
  ms : Nat
  quality : Quality
  deriving DecidableEq, Repr

/-- The discipline states (Table 1-2). -/
inductive Discipline
  | free | acquire | locked | holdover | drift
  deriving DecidableEq, Repr

/-- What stepped station time (R22). -/
inductive StepSource
  | reference | setTime
  deriving DecidableEq, Repr

/-- A reference message held for the next pulse (1.2). -/
structure RefMsg where
  day : Nat
  second : Nat
  valid : Bool
  deriving DecidableEq, Repr

/-- A reference message being received: its bytes after the start byte, and the mark of the last (R188). -/
structure RefRx where
  bytes : List Byte
  mark : Nat
  deriving DecidableEq, Repr

/-- A step of station time as announced (R13), in absolute µs. -/
structure TimeStep where
  before : Nat
  after : Nat
  size : Int
  deriving DecidableEq, Repr

/-- A time announcement (R13). -/
structure Announcement where
  quality : Quality
  stationUs : Nat
  step : Option TimeStep
  deriving DecidableEq, Repr

/-- What the Slave Clock Driver is sent: a time announcement (R13) or a civil-time announcement (R18). -/
inductive ScAnnouncement
  | time (a : Announcement)
  | civil (ms : Nat)
  deriving DecidableEq, Repr

/-! ### Names shared by records and conditions -/

/-- A headcode: four characters (R43 to R44, R85). -/
structure Headcode where
  c0 : Byte
  c1 : Byte
  c2 : Byte
  c3 : Byte
  deriving DecidableEq, Repr

/-- A position a point may be commanded to (Table 3-2). -/
inductive Pos
  | normal | reverse
  deriving DecidableEq, Repr

/-- A detected position (Table 3-2). -/
inductive Detected
  | unknown | normal | reverse | none
  deriving DecidableEq, Repr

/-- A proved aspect (Table 3-3). -/
inductive Aspect
  | unknown | stop | restrict | caution | proceed | dark
  deriving DecidableEq, Repr

/-- What the panel last asked of a signal (Table 3-3). -/
inductive Requested
  | unknown | stop | off
  deriving DecidableEq, Repr

/-- The cause of a gap marker (2.4). -/
inductive GapCause
  | silence | overflow | disabled
  deriving DecidableEq, Repr

/-- The fault reasons (Table 2-5). -/
inductive FaultReason
  | crc | framing | length | unknownKind | queueFull | unknownObject | kindMismatch | linkMismatch
  deriving DecidableEq, Repr

/-- The polarity of an impulse (R140). -/
inductive Polarity
  | positive | negative
  deriving DecidableEq, Repr

/-- The form of an impulse (R140). -/
inductive ImpulseForm
  | counted | resolving
  deriving DecidableEq, Repr

/-- The dial kinds (Table 7-1). -/
inductive DialKind
  | minute | halfMinute
  deriving DecidableEq, Repr

/-- Why a dial is unset (R150). -/
inductive UnsetReason
  | powerOn | restart | kindChange | enabled
  deriving DecidableEq, Repr

/-! ### Conditions (chapter 8) -/

/-- The 21 condition classes, in the order of Table 8-2. -/
inductive Class
  | referenceLost | holdoverExpired | timeStepped
  | linkGap | linkError
  | pointOverdue | pointWrongDetection | pointLostDetection | pointUncommanded
  | signalSlowClear | signalLampFault | signalUncommanded | unplannedTrain
  | pathLate | pathEarly | pathOverdue | pathLost | pathSkipped | pathWrongRoute
  | lineFault | dialUnset
  deriving DecidableEq, Repr

/-- The states of a condition that is present (Table 8-1). -/
inductive CondState
  | activeUnack | activeAck | clearUnack
  deriving DecidableEq, Repr

/-- What the owner recorded at the latest raise: the fields its rule lists (R22, R41, R65 to R75, R80,
R118 to R128, R150). -/
inductive Detail
  | referenceLost (lastPulseMs : Option Nat)
  | holdoverExpired (limitMin : Nat)
  | timeStepped (size : Int) (source : StepSource)
  | linkGap (cause : GapCause) (start : StationQ)
  | linkError (reason : FaultReason)
  | pointOverdue (toward : Pos) (start : Date) (reversed : Bool)
  | pointWrongDetection (commanded : Pos) (detected : Detected)
  | pointLostDetection (before : Detected)
  | pointUncommanded (before detected : Detected) (commanded : Option Pos)
  | signalSlowClear (requested : Date)
  | signalLampFault (before : Aspect)
  | signalUncommanded (before proved : Aspect)
  | unplannedTrain (headcode : Headcode) (entry : Date)
  | pathJudged (index : Nat) (deviation : Int)
  | pathOverdue (index : Nat) (projected : Int)
  | pathLost (index passed : Nat)
  | pathSkipped (skipped matched : Nat)
  | pathWrongRoute (index point : Nat) (expected : Pos) (detected : Detected) (moving : Bool)
  | lineFault (sense : Sense) (polarity : Polarity) (form : ImpulseForm) (position : Nat)
  | dialUnset (kind : DialKind) (reason : UnsetReason)
  deriving DecidableEq, Repr

/-- A condition that is present (Table 8-1). -/
structure Condition where
  cls : Class
  state : CondState
  raised : Date
  mark : Nat
  detail : Detail
  count : Nat
  deriving DecidableEq, Repr

/-- A condition set: at most one condition of each class, in class order (R153). -/
abbrev CondSet := List Condition

/-- The five kinds of subject (R153). -/
inductive Subject
  | timeBase
  | link (i : Fin 4)
  | line (i : Fin 4)
  | object (n : Nat)
  | path (n : Nat)
  deriving DecidableEq, Repr

/-! ### The Time Base (Table 1-1) -/

structure TimeBase where
  /-- Station time, in absolute µs. -/
  stationUs : Nat
  /-- The fraction of a µs carried forward, in 10^-9 µs (R1). -/
  fraction : Nat
  /-- The place within the running millisecond of trimmed time, in µs (R14). -/
  slewPhase : Nat
  /-- The elapsed count, in ms (R3). -/
  elapsed : Nat
  /-- The place within the running millisecond of the oscillator, in µs (R3). -/
  oscPhase : Nat
  discipline : Discipline
  good : Nat
  outliers : Nat
  /-- The trim, in ppb (R16). -/
  trim : Int
  /-- The slew residual, in µs (R14). -/
  residual : Int
  /-- The holdover timer: stopped, or the elapsed count at which it started (R12). -/
  holdoverStart : Option Nat
  timeValid : Bool
  rangeHold : Bool
  /-- The pairing record: the held message and the preceding edge's mark (R5). -/
  heldMsg : Option RefMsg
  precedingEdge : Option Nat
  /-- The gap timer: stopped, or the station time in µs from which it runs (R6, R11). -/
  gapStart : Option Nat
  lastOffset : Option Int
  lastStep : Option Int
  /-- The station time of the last valid pulse, in absolute µs (R6). -/
  lastPulse : Option Nat
  refRx : Option RefRx
  conds : CondSet
  deriving DecidableEq, Repr

/-! ### The Link Receivers (Table 2-1) -/

/-- What a telegram entry carries of its kind (Table 2-2). -/
inductive Content
  | pointCmd (p : Pos)
  | pointInd (d : Detected)
  | signalCmd (r : Requested)
  | signalInd (a : Aspect)
  | berthStep (source : Nat) (headcode : Headcode)
  | berthCancel
  deriving DecidableEq, Repr

/-- A telegram entry of an arrival queue (2.4). -/
structure TelegramEntry where
  content : Content
  refresh : Bool
  object : Nat
  /-- The compensated date, absolute ms (R28). -/
  ms : Nat
  /-- The compensated elapsed mark (R28). -/
  mark : Nat
  quality : Quality
  link : Fin 4
  deriving DecidableEq, Repr

/-- A gap marker (2.4). -/
structure GapMarker where
  start : StationQ
  cause : GapCause
  link : Fin 4
  deriving DecidableEq, Repr

inductive QueueEntry
  | telegram (e : TelegramEntry)
  | marker (m : GapMarker)
  deriving DecidableEq, Repr

/-- The framing state (R26): in RECEIVING, the bytes after the start byte so far, and the mark of the last
character, from which the inter-byte timer runs. -/
inductive Framing
  | hunting
  | receiving (bytes : List Byte) (mark : Nat)
  deriving DecidableEq, Repr

/-- The link states (Table 2-4). -/
inductive LinkState
  | quiet | up | gap
  deriving DecidableEq, Repr

/-- A fault record (2.6). The kind is the kind byte of the telegram. -/
structure FaultRecord where
  reason : FaultReason
  date : StationQ
  kind : Option Byte
  object : Option Nat
  link : Fin 4
  deriving DecidableEq, Repr

structure Link where
  framing : Framing
  state : LinkState
  /-- The silence timer: stopped, or its start mark (R33). -/
  silenceStart : Option Nat
  queue : List QueueEntry
  pendingMarker : Option GapMarker
  lastValid : Option StationQ
  lastAccepted : Option StationQ
  capture : Option FaultRecord
  further : Bool
  conds : CondSet
  deriving DecidableEq, Repr

/-! ### The Object Table (Tables 3-1 to 3-4) -/

/-- A duration code with its valid flag (R81, R82). -/
structure DurationCode where
  exponent : Nat
  mantissa : Nat
  valid : Bool
  deriving DecidableEq, Repr

/-- A movement in flight (4.2); `running` says that its limit timer runs (R62). -/
structure Movement where
  toward : Pos
  start : Date
  startMark : Nat
  reversed : Bool
  running : Bool
  deriving DecidableEq, Repr

/-- A clearing in flight (4.3); `running` says that its limit timer runs (R62). -/
structure Clearing where
  request : Date
  requestMark : Nat
  running : Bool
  deriving DecidableEq, Repr

structure PointRec where
  detected : Detected
  commanded : Option Pos
  throwLimit : Nat
  movement : Option Movement
  lastDuration : Option DurationCode
  count : Nat
  deriving DecidableEq, Repr

structure SignalRec where
  requested : Requested
  aspect : Aspect
  clearLimit : Nat
  clearing : Option Clearing
  lastDuration : Option DurationCode
  deriving DecidableEq, Repr

/-- A berth's occupancy together with its headcode (Table 3-4). -/
inductive Occupancy
  | unknown
  | empty
  | occupied (headcode : Headcode)
  deriving DecidableEq, Repr

/-- An expectation: one armed timing point of one path (6.3). -/
structure Expectation where
  path : Nat
  index : Nat
  deriving DecidableEq, Repr

structure BerthRec where
  occupancy : Occupancy
  /-- Whether an unmatched entry at this berth is reported. -/
  timing : Bool
  queue : List Expectation
  deriving DecidableEq, Repr

/-- The fields of a record's kind. -/
inductive KindRec
  | point (p : PointRec)
  | signal (g : SignalRec)
  | berth (b : BerthRec)
  deriving DecidableEq, Repr

/-- An object record; its number is its key in the table. -/
structure ObjectRec where
  link : Fin 4
  defined : Date
  since : Date
  /-- Present while the record is stale: the stale-since date (Table 3-1). -/
  stale : Option StationQ
  conds : CondSet
  kind : KindRec
  deriving DecidableEq, Repr

/-- The direction of a berth event (R79). -/
inductive Direction
  | entry (timing : Bool)
  | exit
  deriving DecidableEq, Repr

/-- A berth event handed to the Timetable Checker (R79). -/
structure BerthEvent where
  berth : Nat
  headcode : Headcode
  direction : Direction
  date : Date
  deriving DecidableEq, Repr

/-- An unmatched answer handed back to the Movement Dater (R80). -/
structure Answer where
  berth : Nat
  headcode : Headcode
  date : Date
  deriving DecidableEq, Repr

/-! ### The Path Store (Tables 5-1 to 5-4) -/

/-- The timing-point kinds (Table 5-2). -/
inductive PointKind
  | arrive | pass | depart
  deriving DecidableEq, Repr

/-- A route check: a point number and the position it must be detected in (Table 5-2). -/
structure RouteCheck where
  point : Nat
  expected : Pos
  deriving DecidableEq, Repr

/-- The plan fields of a timing point (Table 5-2). -/
structure Plan where
  berth : Nat
  kind : PointKind
  planned : Nat
  early : Nat
  late : Nat
  allowance : Nat
  route : Option RouteCheck
  deriving DecidableEq, Repr

/-- How a pass was judged (Table 5-3). -/
inductive PassOutcome
  | onTime | early | late | notChecked | skipped
  deriving DecidableEq, Repr

/-- The outcome part of a timing point (Table 5-3). -/
structure OutcomePart where
  actual : Option Date
  outcome : PassOutcome
  deviation : Option Int
  wrongRoute : Bool
  deriving DecidableEq, Repr

structure TimingPoint where
  plan : Plan
  outcome : Option OutcomePart
  deriving DecidableEq, Repr

/-- The path states (Table 5-4). -/
inductive PathState
  | loaded | armed | running | complete | cancelled | lost
  deriving DecidableEq, Repr

/-- The stages of a deadline (Table 5-1). -/
inductive Stage
  | overdue | lost | retire
  deriving DecidableEq, Repr

/-- A path's next deadline: absolute station time in ms, and stage (R111). -/
structure Deadline where
  time : Int
  stage : Stage
  deriving DecidableEq, Repr

/-- A path record; its number is its key in the store (Table 5-1). -/
structure PathRec where
  headcode : Headcode
  day : Nat
  state : PathState
  activation : Nat
  points : List TimingPoint
  passed : Nat
  carried : Int
  lastDeviation : Option Int
  deadline : Option Deadline
  ended : Option Date
  conds : CondSet
  templateInUse : Bool
  /-- A template marked for retirement at the end of its REPEAT PATH (R97). -/
  retireMarked : Bool
  deriving DecidableEq, Repr

/-- A REPEAT PATH in flight (R99). -/
structure RepeatOp where
  template : Nat
  first : Nat
  count : Nat
  interval : Nat
  step : Nat
  /-- The next copy index i. -/
  next : Nat
  deriving DecidableEq, Repr

/-- The digest walker (R106). -/
structure DigestWalk where
  position : Nat
  crc : BitVec 32
  paths : Nat
  points : Nat
  disturbed : Bool
  deriving DecidableEq, Repr

/-- The service state of time-driven work (R112). -/
inductive Service
  | serving | suspended
  deriving DecidableEq, Repr

structure TimetableChecker where
  paths : Store PathRec
  poolFree : Nat
  poolReserved : Nat
  repeatOp : Option RepeatOp
  digest : Option DigestWalk
  service : Service
  /-- Time announcements sent and not yet taken (R13, R133). -/
  announcements : List Announcement
  deriving DecidableEq, Repr

/-! ### The slave clock lines (Table 7-2) -/

/-- Position and last polarity. The polarity is unknown only while the position is UNSET (R136). -/
inductive Dial
  | unknown
  | unset (last : Polarity)
  | at (position : Nat) (last : Polarity)
  deriving DecidableEq, Repr

/-- Why a line is holding (Table 7-2). -/
inductive WaitReason
  | holdWindow | timeNotValid
  deriving DecidableEq, Repr

/-- The impulse being driven (R140), with the width in force at its start and whether its current has
been sensed (R142). -/
structure Impulse where
  polarity : Polarity
  form : ImpulseForm
  startMark : Nat
  width : Nat
  sensed : Bool
  deriving DecidableEq, Repr

/-- The line states (Table 7-3), each with the timer it keeps: an impulse ends at its start mark plus its
width, a gap is counted from the completion mark, a fault holds its retry mark. -/
inductive LineState
  | off
  | unset
  | idle
  | wait (reason : WaitReason)
  | impulse (current : Impulse)
  | gap (completion : Nat)
  | fault (retry : Nat)
  deriving DecidableEq, Repr

structure Line where
  enabled : Bool
  kind : DialKind
  dial : Dial
  resolving : Bool
  state : LineState
  lastSense : Option Sense
  conds : CondSet
  deriving DecidableEq, Repr

structure SlaveClockDriver where
  lines : Vec Line 4
  /-- Announcements sent and not yet taken (R13, R18, R145). -/
  announcements : List ScAnnouncement
  deriving DecidableEq, Repr

/-! ### Settings (Table 10-1) -/

/-- The attention line of a class (8.3). -/
inductive Routing
  | urgent | routine
  deriving DecidableEq, Repr

/-- The 81 working settings. -/
structure Settings where
  boundaryHour : Int
  civilOffset : Int
  holdoverLimit : Int
  linkEnable : Vec Bool 4
  linkLatency : Vec Int 4
  silenceLimit : Vec Int 4
  lostLimit : Int
  armingLead : Int
  retention : Int
  lineEnable : Vec Bool 4
  dialKind : Vec DialKind 4
  impulseWidth : Vec Int 4
  gap : Vec Int 4
  holdWindow : Vec Int 4
  classPriority : Vec Int 21
  classLine : Vec Routing 21
  watchAttention : Bool
  deriving DecidableEq, Repr

/-- Where the working settings came from (R183, R185). -/
inductive SettingsSource
  | stored | defaults
  deriving DecidableEq, Repr

/-- The stored copy (10.3). Only a VALID image is ever loaded, so only that image is kept. -/
inductive StoredCopy
  | blank
  | valid (image : List (BitVec 16)) (check : BitVec 16)
  | invalid
  deriving DecidableEq, Repr

/-- The snapshot of a save in progress, with its check (R184). -/
structure Snapshot where
  image : List (BitVec 16)
  check : BitVec 16
  deriving DecidableEq, Repr

/-! ### The Service Link (chapter 9) -/

/-- The status codes (Table 9-1). -/
inductive Status
  | ok | started | clamped
  | badRequest | noSuch | numberInUse | badObject | outOfRange | order | poolFull | storeFull
  | notWhileRunning | inUse | stateConflict | badHeadcode | editBlocked | busy | referenceInUse
  | lineBusy | storeFailed
  deriving DecidableEq, Repr

/-- The long operations (9.3). -/
inductive LongOp
  | repeatPath | digestPlan | saveSettings
  deriving DecidableEq, Repr

/-- The result of a long operation (R173, R184). -/
inductive LongResult
  | copies (n : Nat)
  | digest (crc : BitVec 32) (paths points : Nat) (disturbed : Bool)
  | save (check : BitVec 16)
  deriving DecidableEq, Repr

/-- A completed long operation (9.3). -/
structure Completion where
  kind : LongOp
  tag : Byte
  accepted : Date
  completed : Date
  status : Status
  result : LongResult
  unread : Bool
  deriving DecidableEq, Repr

/-- The long-operation slot (9.3). -/
inductive Slot
  | empty
  | inFlight (kind : LongOp) (tag : Byte) (accepted : Date)
  | done (c : Completion)
  deriving DecidableEq, Repr

/-- The edit fault latch's record (R174). -/
structure LatchRecord where
  reason : Status
  code : ReqCode
  tag : Byte
  subject : Nat
  index : Option Nat
  deriving DecidableEq, Repr

/-- What a watch slot holds (9.5). -/
inductive Watched
  | none
  | object (n : Nat)
  | path (n : Nat)
  deriving DecidableEq, Repr

/-- A watch slot; the retired note names the subject a retirement took from it (R177). -/
structure WatchSlot where
  subject : Watched
  changed : Bool
  retired : Option Watched
  deriving DecidableEq, Repr

/-! ### Response bodies: the fields each rule lists -/

/-- GET TIME STATUS (R21). -/
structure TimeStatus where
  discipline : Discipline
  good : Nat
  outliers : Nat
  trim : Int
  residual : Int
  lastOffset : Option Int
  lastStep : Option Int
  lastPulseMs : Option Nat
  holdover : Nat
  timeValid : Bool
  rangeHold : Bool
  deriving DecidableEq, Repr

/-- READ LINK (R40). -/
structure LinkView where
  enabled : Bool
  state : LinkState
  fill : Nat
  pendingMarker : Option GapMarker
  lastValid : Option StationQ
  lastAccepted : Option StationQ
  capture : Option FaultRecord
  further : Bool
  deriving DecidableEq, Repr

/-- The fields of a record's kind as READ OBJECT gives them: for a berth, the length of its queue (R50). -/
inductive KindView
  | point (p : PointRec)
  | signal (g : SignalRec)
  | berth (occupancy : Occupancy) (timing : Bool) (expectations : Nat)
  deriving DecidableEq, Repr

/-- READ OBJECT (R50). -/
structure ObjectView where
  number : Nat
  link : Fin 4
  defined : Date
  since : Date
  stale : Option StationQ
  conds : List (Class × CondState)
  watch : List Nat
  kind : KindView
  deriving DecidableEq, Repr

/-- The kinds of object (Table 3-1). -/
inductive ObjectKind
  | signal | point | berth
  deriving DecidableEq, Repr

/-- The state of record of an object (R44). -/
inductive StateOfRecord
  | position (d : Detected)
  | aspect (a : Aspect)
  | occupancy (o : Occupancy)
  deriving DecidableEq, Repr

/-- An object summary (R51, Table 11-6). -/
structure ObjectSummary where
  number : Nat
  kind : ObjectKind
  link : Fin 4
  state : StateOfRecord
  since : Date
  stale : Option StationQ
  conditions : Nat
  unacknowledged : Bool
  deriving DecidableEq, Repr

/-- A path summary (R104, Table 11-7). -/
structure PathSummary where
  number : Nat
  headcode : Headcode
  day : Nat
  state : PathState
  points : Nat
  passed : Nat
  lastDeviation : Option Int
  stage : Option Stage
  conditions : Nat
  unacknowledged : Bool
  templateInUse : Bool
  deriving DecidableEq, Repr

/-- A summary of either kind (R176, R178). -/
inductive Summary
  | object (o : ObjectSummary)
  | path (p : PathSummary)
  deriving DecidableEq, Repr

/-- READ PATH (R103). -/
structure PathView where
  number : Nat
  headcode : Headcode
  day : Nat
  state : PathState
  activation : Nat
  passed : Nat
  carried : Int
  lastDeviation : Option Int
  deadline : Option Deadline
  ended : Option Date
  conds : List (Class × CondState)
  watch : List Nat
  templateInUse : Bool
  count : Nat
  /-- The index of the first timing point given; the rest follow in order. -/
  first : Nat
  points : List TimingPoint
  deriving DecidableEq, Repr

/-- One expectation of READ BERTH QUEUE (R105). -/
structure ExpectationView where
  position : Nat
  path : Nat
  headcode : Headcode
  index : Nat
  kind : PointKind
  planned : Nat
  deriving DecidableEq, Repr

/-- READ LINE (R149). -/
structure LineView where
  enabled : Bool
  kind : DialKind
  width : Int
  gap : Int
  holdWindow : Int
  state : LineState
  dial : Dial
  resolving : Bool
  lastSense : Option Sense
  timerLeft : Option Nat
  disablingDeferred : Bool
  kindDeferred : Bool
  civilMs : Nat
  /-- Target, behind and ahead; absent while the position is UNSET. -/
  target : Option (Nat × Nat × Nat)
  deriving DecidableEq, Repr

/-- A condition as NEXT CONDITION and READ CONDITIONS give it (R161, R164, Table 11-8). -/
structure ConditionView where
  subject : Subject
  condition : Condition
  priority : Int
  line : Routing
  deriving DecidableEq, Repr

/-- One slot of READ WATCH (R178). -/
structure WatchView where
  slot : WatchSlot
  summary : Option Summary
  deriving DecidableEq, Repr

/-- GET STATUS (R179). -/
structure StatusView where
  /-- The identity: vendor code, part code and issue letter (11.1). -/
  vendor : BitVec 16
  part : BitVec 16
  issue : Byte
  slot : Slot
  latch : Option LatchRecord
  source : SettingsSource
  objects : Nat
  paths : Nat
  poolFree : Nat
  poolReserved : Nat
  discipline : Discipline
  timeValid : Bool
  deriving DecidableEq, Repr

/-- The body of a response. -/
inductive Body
  | none
  | date (d : Date)
  | pathState (st : PathState)
  | value (v : Int)
  /-- The state after an acknowledgement: none is absent (R162). -/
  | acknowledged (st : Option CondState)
  | time (ms : Nat) (quality : Quality) (valid : Bool) (elapsed civilMs : Nat)
  | timeStatus (v : TimeStatus)
  | link (v : LinkView)
  | object (v : ObjectView)
  | objects (found : List ObjectSummary) (next : Nat)
  | path (v : PathView)
  | paths (found : List PathSummary) (next : Nat)
  | berthQueue (length : Nat) (found : List ExpectationView)
  /-- STARTED, with the unread completion it displaces (R172). -/
  | started (displaced : Option Completion)
  | line (v : LineView)
  /-- NEXT CONDITION: the condition, the count of others considered, and with ACKNOWLEDGE the state after. -/
  | condition (v : ConditionView) (others : Nat) (after : Option (Option CondState))
  | conditions (found : List ConditionView)
  | summary (v : Option Summary)
  | watch (slots : List WatchView)
  | status (v : StatusView)
  | latch (v : Option LatchRecord)
  | settings (v : Settings) (source : SettingsSource) (copy : StoredCopy)
  deriving DecidableEq, Repr

/-- A response frame (R169). -/
structure Response where
  code : Byte
  tag : Byte
  status : Status
  lostRequest : Bool
  body : Body
  deriving DecidableEq, Repr

/-- A request frame as the Service Link has collected it (R168): its header behind the code, the body bytes it keeps, at
most 1,024, and how many were shifted in, those discarded among them (R171). -/
structure Collected where
  tag : Byte
  len : BitVec 16
  body : List Byte
  shifted : Nat
  deriving DecidableEq, Repr

/-- The owners that GET STATUS asks, in turn; the Path Store gives its count and its pool in two readings (R179). -/
inductive StatusOwner
  | serviceLink | settingsStore | objectTable | pathStore | pool | timeBase
  deriving DecidableEq, Repr

/-- What has been taken of an answer whose owners are asked in turn, each as one event (R171, R178, R179). -/
inductive Gathered
  /-- READ WATCH: the slots taken, and the slot that comes next. -/
  | watch (taken : List WatchView) (next : Fin 16)
  /-- GET STATUS: the items, and the owner asked next. An item whose owner has not been asked is taken again from it. -/
  | status (items : StatusView) (next : StatusOwner)
  deriving DecidableEq, Repr

/-- The request in work (R170): an admitted frame of Table 9-2, one of which some owners have been asked already, or one
that the Service Link cannot understand. -/
inductive InWork
  | request (code : ReqCode) (frame : Collected)
  | gathering (frame : Collected) (taken : Gathered)
  | unnamed (code tag : Byte)
  deriving DecidableEq, Repr

/-- The one transaction (R170): none open; a request in work, with LOST_REQUEST recorded or not; or its response
pending until it is read. -/
inductive Transaction
  | closed
  | inWork (work : InWork) (lost : Bool)
  | pending (response : Response)
  deriving DecidableEq, Repr

structure ServiceLink where
  transaction : Transaction
  /-- The bytes shifted out on SL_DO after the command byte, in the last transfer that shifted any (R167, R169). -/
  out : List Byte
  latch : Option LatchRecord
  slot : Slot
  deriving DecidableEq, Repr

/-! ### The whole part -/

structure State where
  tb : TimeBase
  links : Vec Link 4
  objects : Store ObjectRec
  /-- Berth events handed and not yet taken, first handed first (R79). -/
  berthEvents : List BerthEvent
  /-- Unmatched answers not yet taken, first given first (R80). -/
  answers : List Answer
  tc : TimetableChecker
  sc : SlaveClockDriver
  sl : ServiceLink
  watch : Vec WatchSlot 16
  settings : Settings
  source : SettingsSource
  copy : StoredCopy
  saving : Option Snapshot
  attnU : Bool
  attnR : Bool
  /-- RESTART_N is held. -/
  held : Bool
  /-- The MODEL's own count that names fresh free values (log 1). -/
  freeCount : Nat
  /-- The MODEL's queue of waiting commands, first in, first out. -/
  pending : List Instr
  deriving DecidableEq, Repr

/-- The machine stops with a fault. No rule of the manual stops the part, so no meaning raises one: what the
manual calls a fault is data (a capture, the latch, a condition). -/
inductive Fault
  /-- Raised by no meaning; kept so that a fault has a name. Safe: a stop proves nothing about the part. -/
  | noneDefined
  deriving DecidableEq, Repr

/-- The reasons a command may have no meaning. -/
inductive Refusal
  /-- Raised by an arm of `exec` whose command has no meaning yet; none is left. Safe: nothing follows from it. -/
  | notModelled (mnemonic : String)
  deriving DecidableEq, Repr

/-! ### The state after reset -/

/-- The default priorities of Table 8-2, in class order. -/
def defaultPriorities : Vec Int 21 :=
  ⟨[6, 10, 5, 12, 4, 13, 14, 14, 15, 8, 12, 15, 7, 3, 3, 6, 7, 4, 9, 5, 2], rfl⟩

/-- The default lines of Table 8-2, in class order. -/
def defaultLines : Vec Routing 21 :=
  ⟨[.routine, .urgent, .routine, .urgent, .routine, .urgent, .urgent, .urgent, .urgent, .routine, .urgent,
    .urgent, .routine, .routine, .routine, .routine, .routine, .routine, .urgent, .routine, .routine], rfl⟩

/-- The defaults of Table 10-1. -/
def Settings.default : Settings where
  boundaryHour := 2
  civilOffset := 0
  holdoverLimit := 240
  linkEnable := Vec.fill 4 true
  linkLatency := Vec.fill 4 0
  silenceLimit := Vec.fill 4 5
  lostLimit := 60
  armingLead := 30
  retention := 120
  lineEnable := Vec.fill 4 false
  dialKind := Vec.fill 4 .minute
  impulseWidth := Vec.fill 4 300
  gap := Vec.fill 4 700
  holdWindow := Vec.fill 4 60
  classPriority := defaultPriorities
  classLine := defaultLines
  watchAttention := true

/-- The Time Base at power-on (R23). -/
def TimeBase.initial : TimeBase where
  stationUs := 0
  fraction := 0
  slewPhase := 0
  elapsed := 0
  oscPhase := 0
  discipline := .free
  good := 0
  outliers := 0
  trim := 0
  residual := 0
  holdoverStart := none
  timeValid := false
  rangeHold := false
  heldMsg := none
  precedingEdge := none
  gapStart := none
  lastOffset := none
  lastStep := none
  lastPulse := none
  refRx := none
  conds := []

/-- A Link Receiver at power-on (R42, R166). -/
def Link.initial : Link where
  framing := .hunting
  state := .quiet
  silenceStart := none
  queue := []
  pendingMarker := none
  lastValid := none
  lastAccepted := none
  capture := none
  further := false
  conds := []

/-- The Timetable Checker after either reset, before it sets its service state (R109, R135). -/
def TimetableChecker.initial : TimetableChecker where
  paths := []
  poolFree := Config.poolEntries
  poolReserved := 0
  repeatOp := none
  digest := none
  service := .suspended
  announcements := []

/-- A disabled line at power-on (R151). -/
def Line.initial : Line where
  enabled := false
  kind := .minute
  dial := .unknown
  resolving := false
  state := .off
  lastSense := none
  conds := []

/-- The Service Link after either reset (R180). -/
def ServiceLink.initial : ServiceLink where
  transaction := .closed
  out := []
  latch := none
  slot := .empty

/-- A watch slot after either reset (R180). -/
def WatchSlot.initial : WatchSlot := ⟨.none, false, none⟩

/-- The machine right after reset: the power-on of a new part, whose stored copy is BLANK, so that the
defaults are loaded and every line is OFF (R23, R42, R60, R109, R151, R166, R180, R185; log 5). -/
def State.reset : State where
  tb := .initial
  links := Vec.fill 4 .initial
  objects := []
  berthEvents := []
  answers := []
  tc := .initial
  sc := ⟨Vec.fill 4 .initial, []⟩
  sl := .initial
  watch := Vec.fill 16 .initial
  settings := .default
  source := .defaults
  copy := .blank
  saving := none
  attnU := false
  attnR := false
  held := false
  freeCount := 0
  pending := []

end Sys2Proof.Machine
end

