-- ==== Sys2Proof/Machine/Bytes.lean ====
section
/-! DEFINITION. Bytes on the wire: byte order, the codes of Table 11-1, the central records of 11.3 and the
checks (R27, R107, R187, 10.3). -/

namespace Sys2Proof.Machine

/-- The number a run of bytes spells, most significant byte first (chapter 11). -/
def beNat (bs : List Byte) : Nat := bs.foldl (fun a b => a * 256 + b.toNat) 0

/-- A number as `width` bytes, most significant byte first (chapter 11). -/
def toBe : Nat → Nat → List Byte
  | 0, _ => []
  | width + 1, n => toBe width (n / 256) ++ [BitVec.ofNat 8 n]

/-- A signed number as `width` bytes in two's complement (chapter 11). -/
def toBeInt (width : Nat) (z : Int) : List Byte := toBe width (z.emod (256 ^ width : Nat)).toNat

/-- The signed value of a 16-bit field (chapter 11). -/
def signed16 (n : Nat) : Int := if n < 32768 then (n : Int) else (n : Int) - 65536

/-- The number in `width` bytes of a body from an offset. -/
def field (body : List Byte) (offset width : Nat) : Nat := beNat ((body.drop offset).take width)

/-- One byte of a body; 0 beyond its end. -/
def byteAt (body : List Byte) (offset : Nat) : Byte := body.getD offset 0

/-- The byte of a small number. -/
def one (n : Nat) : List Byte := [BitVec.ofNat 8 n]

/-- The byte of a flag or a presence mark (R187). -/
def flagByte (b : Bool) : Byte := if b then 1 else 0

/-! ### Checks -/

/-- `n` shifts of the CRC-16 register, most significant bit first, generator 0x1021 (R27). -/
def crc16Shift : Nat → BitVec 16 → BitVec 16
  | 0, c => c
  | n + 1, c => crc16Shift n (if c.msb then (c <<< 1) ^^^ 0x1021#16 else c <<< 1)

/-- The CRC-16 of R27 and 10.3: initial value 0xFFFF, no final inversion. -/
def crc16 (bs : List Byte) : BitVec 16 :=
  bs.foldl (fun c b => crc16Shift 8 (c ^^^ BitVec.shiftLeft (b.setWidth 16) 8)) 0xFFFF#16

/-- `n` shifts of the CRC-32 register, most significant bit first, generator 0x1EDC6F41 (R107). -/
def crc32Shift : Nat → BitVec 32 → BitVec 32
  | 0, c => c
  | n + 1, c => crc32Shift n (if c.msb then (c <<< 1) ^^^ 0x1EDC6F41#32 else c <<< 1)

/-- The CRC-32 register carried over a run of bytes (R107). -/
def crc32Run (crc : BitVec 32) (bs : List Byte) : BitVec 32 :=
  bs.foldl (fun c b => crc32Shift 8 (c ^^^ BitVec.shiftLeft (b.setWidth 32) 24)) crc

/-- The digest: the register exclusive-ORed with 0xFFFFFFFF (R107). -/
def crc32Final (crc : BitVec 32) : BitVec 32 := crc ^^^ 0xFFFFFFFF#32

/-- The check of a reference message: the exclusive-OR of its bytes (R188). -/
def xorBytes (bs : List Byte) : Byte := bs.foldl (fun a b => a ^^^ b) 0

/-! ### Headcodes -/

/-- A headcode character is a digit 0–9 or a capital letter A–Z. -/
def headcodeChar (b : Byte) : Bool :=
  (decide (0x30 ≤ b.toNat) && decide (b.toNat ≤ 0x39)) || (decide (0x41 ≤ b.toNat) && decide (b.toNat ≤ 0x5A))

def Headcode.bytes (h : Headcode) : List Byte := [h.c0, h.c1, h.c2, h.c3]

def Headcode.ofBytes (bs : List Byte) (offset : Nat) : Headcode :=
  ⟨byteAt bs offset, byteAt bs (offset + 1), byteAt bs (offset + 2), byteAt bs (offset + 3)⟩

def Headcode.wellFormed (h : Headcode) : Bool := h.bytes.all headcodeChar

/-- The digit a character shows, when it shows one. -/
def digitOf (b : Byte) : Option Nat :=
  if 0x30 ≤ b.toNat ∧ b.toNat ≤ 0x39 then some (b.toNat - 0x30) else none

/-- The last two characters read as a number from 0 to 99 (R99). -/
def Headcode.serial (h : Headcode) : Option Nat :=
  match digitOf h.c2, digitOf h.c3 with
  | some a, some b => some (a * 10 + b)
  | _, _ => none

/-- The headcode with its last two characters replaced by a number from 0 to 99 (R99). -/
def Headcode.withSerial (h : Headcode) (n : Nat) : Headcode :=
  { h with c2 := BitVec.ofNat 8 (0x30 + n / 10), c3 := BitVec.ofNat 8 (0x30 + n % 10) }

/-- An unused headcode is four zero bytes (R187). -/
def noHeadcode : List Byte := [0, 0, 0, 0]

/-! ### Codes of Table 11-1 -/

def Quality.code : Quality → Nat
  | .locked => 0
  | .holdover => 1
  | .unsync => 2

def ObjectKind.code : ObjectKind → Nat
  | .signal => 1
  | .point => 2
  | .berth => 3

def ObjectKind.ofCode : Nat → Option ObjectKind
  | 1 => some .signal
  | 2 => some .point
  | 3 => some .berth
  | _ => none

def Pos.code : Pos → Nat
  | .normal => 1
  | .reverse => 2

def Pos.ofCode : Nat → Option Pos
  | 1 => some .normal
  | 2 => some .reverse
  | _ => none

def Detected.code : Detected → Nat
  | .unknown => 0
  | .normal => 1
  | .reverse => 2
  | .none => 3

/-- The position a POINT_IND reports; UNKNOWN is not one it can carry (11.4). -/
def Detected.ofCode : Nat → Option Detected
  | 1 => some .normal
  | 2 => some .reverse
  | 3 => some .none
  | _ => Option.none

/-- The aspect a SIGNAL_IND reports (11.4). -/
def Aspect.ofCode : Nat → Option Aspect
  | 1 => some .stop
  | 2 => some .restrict
  | 3 => some .caution
  | 4 => some .proceed
  | 5 => some .dark
  | _ => none

def Aspect.code : Aspect → Nat
  | .unknown => 0
  | .stop => 1
  | .restrict => 2
  | .caution => 3
  | .proceed => 4
  | .dark => 5

/-- What a SIGNAL_CMD requests (11.4). -/
def Requested.ofCode : Nat → Option Requested
  | 1 => some .stop
  | 2 => some .off
  | _ => none

def Requested.code : Requested → Nat
  | .unknown => 0
  | .stop => 1
  | .off => 2

def Occupancy.code : Occupancy → Nat
  | .unknown => 0
  | .empty => 1
  | .occupied _ => 2

def PathState.code : PathState → Nat
  | .loaded => 1
  | .armed => 2
  | .running => 3
  | .complete => 4
  | .cancelled => 5
  | .lost => 6

def PathState.ofCode : Nat → Option PathState
  | 1 => some .loaded
  | 2 => some .armed
  | 3 => some .running
  | 4 => some .complete
  | 5 => some .cancelled
  | 6 => some .lost
  | _ => none

def PointKind.code : PointKind → Nat
  | .arrive => 1
  | .pass => 2
  | .depart => 3

def PointKind.ofCode : Nat → Option PointKind
  | 1 => some .arrive
  | 2 => some .pass
  | 3 => some .depart
  | _ => none

def PassOutcome.code : PassOutcome → Nat
  | .onTime => 1
  | .early => 2
  | .late => 3
  | .notChecked => 4
  | .skipped => 5

def Stage.code : Stage → Nat
  | .overdue => 1
  | .lost => 2
  | .retire => 3

def Subject.kindCode : Subject → Nat
  | .timeBase => 0
  | .link _ => 1
  | .line _ => 2
  | .object _ => 3
  | .path _ => 4

def Subject.number : Subject → Nat
  | .timeBase => 0
  | .link i => i.val
  | .line i => i.val
  | .object n => n
  | .path n => n

def condStateCode : Option CondState → Nat
  | none => 0
  | some .activeUnack => 1
  | some .activeAck => 2
  | some .clearUnack => 3

def Routing.code : Routing → Nat
  | .urgent => 1
  | .routine => 2

def Polarity.code : Polarity → Nat
  | .positive => 1
  | .negative => 2

def StepSource.code : StepSource → Nat
  | .reference => 1
  | .setTime => 2

def GapCause.code : GapCause → Nat
  | .silence => 1
  | .overflow => 2
  | .disabled => 3

def FaultReason.code : FaultReason → Nat
  | .crc => 1
  | .framing => 2
  | .length => 3
  | .unknownKind => 4
  | .queueFull => 5
  | .unknownObject => 6
  | .kindMismatch => 7
  | .linkMismatch => 8

def senseCode : Sense → Nat
  | .opened => 1
  | .normal => 2
  | .short => 3

def ImpulseForm.code : ImpulseForm → Nat
  | .counted => 1
  | .resolving => 2

def DialKind.code : DialKind → Nat
  | .minute => 0
  | .halfMinute => 1

def UnsetReason.code : UnsetReason → Nat
  | .powerOn => 1
  | .restart => 2
  | .kindChange => 3
  | .enabled => 4

/-- The status codes: 0x00 to 0x02, and 0x10 upward in the order of Table 9-1. -/
def Status.code : Status → Nat
  | .ok => 0x00
  | .started => 0x01
  | .clamped => 0x02
  | .badRequest => 0x10
  | .noSuch => 0x11
  | .numberInUse => 0x12
  | .badObject => 0x13
  | .outOfRange => 0x14
  | .order => 0x15
  | .poolFull => 0x16
  | .storeFull => 0x17
  | .notWhileRunning => 0x18
  | .inUse => 0x19
  | .stateConflict => 0x1A
  | .badHeadcode => 0x1B
  | .editBlocked => 0x1C
  | .busy => 0x1D
  | .referenceInUse => 0x1E
  | .lineBusy => 0x1F
  | .storeFailed => 0x20

/-! ### Central records (11.3) -/

/-- A station time: the day and the millisecond of day, 6 bytes. -/
def stationBytes (ms : Nat) : List Byte := toBe 2 (ms / Config.msPerDay) ++ toBe 4 (ms % Config.msPerDay)

/-- A station time with its quality, 7 bytes. -/
def StationQ.bytes (t : StationQ) : List Byte := stationBytes t.ms ++ one t.quality.code

/-- A date in a detail: its station time with its quality, 7 bytes. -/
def Date.detailBytes (d : Date) : List Byte := stationBytes d.ms ++ one d.quality.code

/-- The date record of Table 11-4, 14 bytes. -/
def Date.bytes (d : Date) : List Byte :=
  stationBytes d.ms ++ one d.quality.code ++
    match d.kind with
    | .observed => one 0 ++ List.replicate 6 0
    | .afterGap earliest => one 1 ++ stationBytes earliest

/-- An optional detail field: a presence byte, then the field or zero bytes over its width (R187). -/
def optionalBytes (width : Nat) : Option (List Byte) → List Byte
  | none => one 0 ++ List.replicate width 0
  | some bs => one 1 ++ bs

/-- The fields of a detail in the owner's order (11.3). -/
def Detail.fields : Detail → List Byte
  | .referenceLost last => optionalBytes 6 (last.map stationBytes)
  | .holdoverExpired limit => toBe 2 limit
  | .timeStepped size source => toBeInt 8 size ++ one source.code
  | .linkGap cause start => one cause.code ++ start.bytes
  | .linkError reason => one reason.code
  | .pointOverdue toward start reversed => one toward.code ++ start.detailBytes ++ [flagByte reversed]
  | .pointWrongDetection commanded detected => one commanded.code ++ one detected.code
  | .pointLostDetection before => one before.code
  | .pointUncommanded before detected commanded =>
    one before.code ++ one detected.code ++ optionalBytes 1 (commanded.map fun p => one p.code)
  | .signalSlowClear requested => requested.detailBytes
  | .signalLampFault before => one before.code
  | .signalUncommanded before proved => one before.code ++ one proved.code
  | .unplannedTrain headcode entry => headcode.bytes ++ entry.detailBytes
  | .pathJudged index deviation => one index ++ toBeInt 2 deviation
  | .pathOverdue index projected => one index ++ toBeInt 8 projected
  | .pathLost index passed => one index ++ one passed
  | .pathSkipped skipped matched => one skipped ++ one matched
  | .pathWrongRoute index point expected detected moving =>
    one index ++ toBe 2 point ++ one expected.code ++ one detected.code ++ [flagByte moving]
  | .lineFault sense polarity form position =>
    one (senseCode sense) ++ one polarity.code ++ one form.code ++ toBe 2 position
  | .dialUnset kind reason => one kind.code ++ one reason.code

/-- A detail: its fields followed by zero bytes to make 16 (11.3). -/
def Detail.bytes (d : Detail) : List Byte :=
  (d.fields ++ List.replicate 16 0).take 16

/-- A timing-point entry, 14 bytes (Table 11-5). -/
def Plan.bytes (p : Plan) : List Byte :=
  toBe 2 p.berth ++ one p.kind.code ++ toBe 2 p.planned ++ toBe 2 p.early ++ toBe 2 p.late ++
    toBe 2 p.allowance ++
    match p.route with
    | none => [0, 0, 0]
    | some r => toBe 2 r.point ++ one r.expected.code

/-- A path as the digest walker serialises it (R107). -/
def digestBytes (number : Nat) (p : PathRec) : List Byte :=
  toBe 2 number ++ p.headcode.bytes ++ toBe 2 p.day ++ one p.points.length ++
    p.points.flatMap fun t => t.plan.bytes

def StateOfRecord.code : StateOfRecord → Nat
  | .position d => d.code
  | .aspect a => a.code
  | .occupancy o => o.code

/-- The headcode field of an object summary: present when OCCUPIED. -/
def StateOfRecord.headcodeBytes : StateOfRecord → List Byte
  | .occupancy (.occupied h) => h.bytes
  | .occupancy .unknown => noHeadcode
  | .occupancy .empty => noHeadcode
  | .position _ => noHeadcode
  | .aspect _ => noHeadcode

/-- An object summary, 33 bytes (Table 11-6). -/
def ObjectSummary.bytes (o : ObjectSummary) : List Byte :=
  toBe 2 o.number ++ one o.kind.code ++ one o.link.val ++ one o.state.code ++ o.state.headcodeBytes ++
    o.since.bytes ++
    (match o.stale with
      | none => [0] ++ List.replicate 7 0
      | some t => [1] ++ t.bytes) ++
    one o.conditions ++ [flagByte o.unacknowledged]

/-- A path summary, 18 bytes (Table 11-7). -/
def PathSummary.bytes (p : PathSummary) : List Byte :=
  toBe 2 p.number ++ p.headcode.bytes ++ toBe 2 p.day ++ one p.state.code ++ one p.points ++ one p.passed ++
    optionalBytes 2 (p.lastDeviation.map (toBeInt 2)) ++
    one ((p.stage.map Stage.code).getD 0) ++ one p.conditions ++ [flagByte p.unacknowledged] ++
    [flagByte p.templateInUse]

/-- A duration code on the wire: the valid flag, the exponent and the mantissa in 2 bytes (11.3). -/
def DurationCode.bytes (c : DurationCode) : List Byte :=
  toBe 2 ((if c.valid then 0x8000 else 0) + c.exponent * 0x1000 + c.mantissa)

end Sys2Proof.Machine
end

