-- ==== Sys2Proof/Machine/Flags.lean ====
section
/-! DEFINITION. Conditions as flags of the part: the classes of Table 8-2, the transitions of a condition
(R154 to R156), and the attention lines ATTN_U and ATTN_R (R158, R159). -/

namespace Sys2Proof.Machine

/-! ### Classes -/

/-- The order of a class in Table 8-2, counted from 0. -/
def Class.order : Class → Fin 21
  | .referenceLost => 0
  | .holdoverExpired => 1
  | .timeStepped => 2
  | .linkGap => 3
  | .linkError => 4
  | .pointOverdue => 5
  | .pointWrongDetection => 6
  | .pointLostDetection => 7
  | .pointUncommanded => 8
  | .signalSlowClear => 9
  | .signalLampFault => 10
  | .signalUncommanded => 11
  | .unplannedTrain => 12
  | .pathLate => 13
  | .pathEarly => 14
  | .pathOverdue => 15
  | .pathLost => 16
  | .pathSkipped => 17
  | .pathWrongRoute => 18
  | .lineFault => 19
  | .dialUnset => 20

/-- The classes in the order of Table 8-2; class codes are numbered in the same order from 1. -/
def Class.all : List Class :=
  [.referenceLost, .holdoverExpired, .timeStepped, .linkGap, .linkError, .pointOverdue,
   .pointWrongDetection, .pointLostDetection, .pointUncommanded, .signalSlowClear, .signalLampFault,
   .signalUncommanded, .unplannedTrain, .pathLate, .pathEarly, .pathOverdue, .pathLost, .pathSkipped,
   .pathWrongRoute, .lineFault, .dialUnset]

def Class.code (c : Class) : Nat := c.order.val + 1

/-- The class a code names (Table 11-1). -/
def Class.ofCode (n : Nat) : Option Class := if n = 0 then none else Class.all[n - 1]?

/-- Whether a class follows a cause that lasts (Table 8-2). -/
def Class.sustained : Class → Bool
  | .referenceLost | .holdoverExpired | .linkGap | .pointOverdue | .pointLostDetection | .signalSlowClear
  | .signalLampFault | .unplannedTrain | .pathOverdue | .lineFault | .dialUnset => true
  | .timeStepped | .linkError | .pointWrongDetection | .pointUncommanded | .signalUncommanded | .pathLate
  | .pathEarly | .pathLost | .pathSkipped | .pathWrongRoute => false

/-- The code of the kind of subject a class belongs to (Table 8-2, Table 11-1). -/
def Class.subjectCode : Class → Nat
  | .referenceLost | .holdoverExpired | .timeStepped => 0
  | .linkGap | .linkError => 1
  | .lineFault | .dialUnset => 2
  | .pointOverdue | .pointWrongDetection | .pointLostDetection | .pointUncommanded | .signalSlowClear
  | .signalLampFault | .signalUncommanded | .unplannedTrain => 3
  | .pathLate | .pathEarly | .pathOverdue | .pathLost | .pathSkipped | .pathWrongRoute => 4

/-! ### Condition sets -/

/-- A condition is active in ACTIVE_UNACK and ACTIVE_ACK (R153). -/
def CondState.active : CondState → Bool
  | .activeUnack => true
  | .activeAck => true
  | .clearUnack => false

/-- A condition is unacknowledged in ACTIVE_UNACK and CLEAR_UNACK (R153). -/
def CondState.unack : CondState → Bool
  | .activeUnack => true
  | .activeAck => false
  | .clearUnack => true

/-- The condition of a class, when it is present. -/
def CondSet.find (cs : CondSet) (c : Class) : Option Condition := List.find? (fun x => x.cls = c) cs

/-- The set with a condition put in place of its class's present one, in class order. -/
def CondSet.put : CondSet → Condition → CondSet
  | [], x => [x]
  | y :: t, x =>
    if x.cls.order < y.cls.order then x :: y :: t
    else if x.cls = y.cls then x :: t
    else y :: CondSet.put t x

/-- The set without a class. -/
def CondSet.drop (cs : CondSet) (c : Class) : CondSet := List.filter (fun x => x.cls ≠ c) cs

/-- Whether the cause of a class is active. -/
def CondSet.active (cs : CondSet) (c : Class) : Bool :=
  match cs.find c with
  | some x => x.state.active
  | none => false

/-- One more raise, holding at 255 (Table 8-1). -/
def nextCount (n : Nat) : Nat := min 255 (n + 1)

/-- A cause begins: the first four rows of Table 8-1a (R154). -/
def CondSet.begun (cs : CondSet) (c : Class) (raised : Date) (mark : Nat) (detail : Detail) : CondSet :=
  let count := match cs.find c with
    | none => 1
    | some x => if x.state = .activeAck then 1 else nextCount x.count
  cs.put ⟨c, .activeUnack, raised, mark, detail, count⟩

/-- A cause ends: ACTIVE_UNACK becomes CLEAR_UNACK, ACTIVE_ACK becomes absent (R154). -/
def CondSet.ended (cs : CondSet) (c : Class) : CondSet :=
  match cs.find c with
  | none => cs
  | some x =>
    match x.state with
    | .activeUnack => cs.put { x with state := .clearUnack }
    | .activeAck => cs.drop c
    | .clearUnack => cs

/-- A momentary raise (R155). -/
def CondSet.raised (cs : CondSet) (c : Class) (date : Date) (mark : Nat) (detail : Detail) : CondSet :=
  let count := match cs.find c with
    | none => 1
    | some x => nextCount x.count
  cs.put ⟨c, .clearUnack, date, mark, detail, count⟩

/-- An acknowledgement: ACTIVE_UNACK becomes ACTIVE_ACK, CLEAR_UNACK becomes absent (R154, R155). -/
def CondSet.acknowledged (cs : CondSet) (c : Class) : CondSet :=
  match cs.find c with
  | none => cs
  | some x =>
    match x.state with
    | .activeUnack => cs.put { x with state := .activeAck }
    | .activeAck => cs
    | .clearUnack => cs.drop c

/-- The state of a class in a set: none is absent (R153). -/
def CondSet.stateOf (cs : CondSet) (c : Class) : Option CondState := (cs.find c).map (·.state)

/-! ### Every condition of the part -/

/-- Every condition present, with its subject, in the subject order of R160 and in class order. -/
def State.conditions (s : State) : List (Subject × Condition) :=
  s.tb.conds.map (Prod.mk Subject.timeBase) ++
  four.flatMap (fun i => (s.links.get i).conds.map (Prod.mk (Subject.link i))) ++
  four.flatMap (fun i => (s.sc.lines.get i).conds.map (Prod.mk (Subject.line i))) ++
  s.objects.flatMap (fun e => e.2.conds.map (Prod.mk (Subject.object e.1))) ++
  s.tc.paths.flatMap (fun e => e.2.conds.map (Prod.mk (Subject.path e.1)))

/-- The priority of a class as the settings stand (R158). -/
def Settings.priority (w : Settings) (c : Class) : Int := w.classPriority.get c.order

/-- The line of a class as the settings stand (R158). -/
def Settings.line (w : Settings) (c : Class) : Routing := w.classLine.get c.order

/-- An unacknowledged condition of a class that is not silent (R158, R160). -/
def Settings.calls (w : Settings) (x : Condition) : Bool := x.state.unack && decide (1 ≤ w.priority x.cls)

/-- An unacknowledged condition of priority 1 or more on a given line exists (R159). -/
def State.anyCalling (s : State) (line : Routing) : Bool :=
  s.conditions.any fun x => s.settings.calls x.2 && decide (s.settings.line x.2.cls = line)

/-- A long-operation completion is unread (R159, R173). -/
def Slot.unread : Slot → Bool
  | .empty => false
  | .inFlight _ _ _ => false
  | .done c => c.unread

/-- A watch slot is marked changed (R159, R177). -/
def State.anyChanged (s : State) : Bool := s.watch.val.any (·.changed)

/-- What ATTN_U is to show (R159); neither line is asserted while RESTART_N is held (R166). -/
def State.wantsU (s : State) : Bool := !s.held && s.anyCalling .urgent

/-- What ATTN_R is to show (R159, R166). -/
def State.wantsR (s : State) : Bool :=
  !s.held && (s.anyCalling .routine || (s.settings.watchAttention && s.anyChanged) || s.sl.slot.unread)

/-- The attention lines are brought up to date in the event that changes any of their inputs (R159). -/
def State.settle (s : State) : State := { s with attnU := s.wantsU, attnR := s.wantsR }

end Sys2Proof.Machine
end

