-- ==== Sys2Proof/Machine/Ops.lean ====
section
/-! DEFINITION. The named operations shared by the blocks: reading the clock, condition reports, watch
reports, announcements, the long-operation slot, and the passing of time. -/

namespace Sys2Proof.Machine

/-! ### The clock -/

/-- The quality that goes with a discipline state (Table 1-2). -/
def Discipline.quality : Discipline → Quality
  | .free => .unsync
  | .acquire => .holdover
  | .locked => .locked
  | .holdover => .holdover
  | .drift => .unsync

/-- The quality of station time as it stands (R13). -/
def State.quality (s : State) : Quality := s.tb.discipline.quality

/-- Station time as a date carries it: absolute ms, the microseconds truncated (R1). -/
def State.stationMs (s : State) : Nat := s.tb.stationUs / 1000

/-- The elapsed count (R3). -/
def State.elapsed (s : State) : Nat := s.tb.elapsed

/-- A date taken from the Time Base, of kind OBSERVED (R13). -/
def State.now (s : State) : Date := ⟨s.stationMs, s.quality, .observed⟩

/-- Station time with its quality (R13). -/
def State.nowQ (s : State) : StationQ := ⟨s.stationMs, s.quality⟩

/-- Civil time of day (R18), from a millisecond of day and the two settings. -/
def civilOf (w : Settings) (msOfDay : Nat) : Nat :=
  (((msOfDay : Int) + w.boundaryHour * 3600000 + w.civilOffset * 60000).emod 86400000).toNat

/-- Civil time of day as it stands (R18). -/
def State.civilMs (s : State) : Nat := civilOf s.settings (s.stationMs % Config.msPerDay)

/-! ### One link, one line, one record -/

def State.link (s : State) (i : Fin 4) : Link := s.links.get i

def State.line (s : State) (i : Fin 4) : Line := s.sc.lines.get i

def State.setLink (s : State) (i : Fin 4) (l : Link) : State := { s with links := s.links.set i l }

def State.setLine (s : State) (i : Fin 4) (l : Line) : State :=
  { s with sc := { s.sc with lines := s.sc.lines.set i l } }

/-- A change of one link record. -/
def State.onLink (s : State) (i : Fin 4) (f : Link → Link) : State := s.setLink i (f (s.link i))

/-- A change of one line record. -/
def State.onLine (s : State) (i : Fin 4) (f : Line → Line) : State := s.setLine i (f (s.line i))

def State.object (s : State) (n : Nat) : Option ObjectRec := s.objects.get n

def State.path (s : State) (n : Nat) : Option PathRec := s.tc.paths.get n

def State.setObject (s : State) (n : Nat) (r : ObjectRec) : State := { s with objects := s.objects.set n r }

def State.setPath (s : State) (n : Nat) (p : PathRec) : State :=
  { s with tc := { s.tc with paths := s.tc.paths.set n p } }

/-- A change of one object record; nothing where the place is empty. -/
def State.onObject (s : State) (n : Nat) (f : ObjectRec → ObjectRec) : State :=
  match s.object n with
  | some r => s.setObject n (f r)
  | none => s

/-- A change of one path record; nothing where no path is stored. -/
def State.onPath (s : State) (n : Nat) (f : PathRec → PathRec) : State :=
  match s.path n with
  | some p => s.setPath n (f p)
  | none => s

/-- The last polarity, when known. -/
def Dial.last : Dial → Option Polarity
  | .at _ p => some p
  | .unset p => some p
  | .unknown => none

/-- The position recorded, when set. -/
def Dial.position : Dial → Option Nat
  | .at n _ => some n
  | .unset _ => none
  | .unknown => none

/-! ### Watch reports (R58, R88, R177) -/

/-- The slot marked changed when it holds the subject. -/
def WatchSlot.reported (w : Watched) (x : WatchSlot) : WatchSlot :=
  if x.subject = w then { x with changed := true } else x

/-- A record's change is reported: every slot of its watch mark is marked changed (R177). -/
def State.report (s : State) (w : Watched) : State :=
  { s with watch := s.watch.map (WatchSlot.reported w) }

/-- A retirement empties each slot that holds the subject, with a retired note, and marks it (R177). -/
def WatchSlot.emptied (w : Watched) (x : WatchSlot) : WatchSlot :=
  if x.subject = w then ⟨.none, true, some w⟩ else x

def State.unwatch (s : State) (w : Watched) : State :=
  { s with watch := s.watch.map (WatchSlot.emptied w) }

/-- The watch mark of a record: the slots that hold it (R58, R88). -/
def State.watchMark (s : State) (w : Watched) : List Nat :=
  (List.range 16).filter fun i => (s.watch.val[i]?.map (·.subject)) = some w

/-! ### Conditions in their subjects' sets (R153) -/

/-- The condition set of a subject; empty where the record does not exist. -/
def State.condsOf (s : State) : Subject → CondSet
  | .timeBase => s.tb.conds
  | .link i => (s.link i).conds
  | .line i => (s.line i).conds
  | .object n => ((s.object n).map (·.conds)).getD []
  | .path n => ((s.path n).map (·.conds)).getD []

/-- The subject's condition set replaced, and for an object or a path the change reported to its watch
slots (R58, R88, R157). -/
def State.setConds (s : State) (subject : Subject) (cs : CondSet) : State :=
  match subject with
  | .timeBase => { s with tb := { s.tb with conds := cs } }
  | .link i => s.onLink i fun l => { l with conds := cs }
  | .line i => s.onLine i fun l => { l with conds := cs }
  | .object n => (s.onObject n fun r => { r with conds := cs }).report (.object n)
  | .path n => (s.onPath n fun p => { p with conds := cs }).report (.path n)

/-- Whether the cause of a class is active at a subject. -/
def State.causeActive (s : State) (subject : Subject) (c : Class) : Bool := (s.condsOf subject).active c

/-- A cause is reported as beginning, whatever the condition's state (R154). -/
def State.causeBegins (s : State) (subject : Subject) (c : Class) (detail : Detail) : State :=
  s.setConds subject ((s.condsOf subject).begun c s.now s.elapsed detail)

/-- The owners' rules: a cause begins when it is not already active (R154). -/
def State.beginCause (s : State) (subject : Subject) (c : Class) (detail : Detail) : State :=
  if s.causeActive subject c then s else s.causeBegins subject c detail

/-- An active cause ends (R154). -/
def State.endCause (s : State) (subject : Subject) (c : Class) : State :=
  if s.causeActive subject c then s.setConds subject ((s.condsOf subject).ended c) else s

/-- A momentary class is raised (R155). -/
def State.raiseMomentary (s : State) (subject : Subject) (c : Class) (detail : Detail) : State :=
  s.setConds subject ((s.condsOf subject).raised c s.now s.elapsed detail)

/-- A condition is acknowledged, and its owner reports the change (R157). -/
def State.acknowledge (s : State) (subject : Subject) (c : Class) : State :=
  s.setConds subject ((s.condsOf subject).acknowledged c)

/-! ### Announcements (R13, R18) -/

/-- One time announcement to the Timetable Checker and one to the Slave Clock Driver (R13). -/
def State.announce (s : State) (step : Option TimeStep) : State :=
  let a : Announcement := ⟨s.quality, s.tb.stationUs, step⟩
  { s with
    tc := { s.tc with announcements := s.tc.announcements ++ [a] }
    sc := { s.sc with announcements := s.sc.announcements ++ [.time a] } }

/-- The civil-time announcement to the Slave Clock Driver (R18). -/
def State.announceCivil (s : State) : State :=
  { s with sc := { s.sc with announcements := s.sc.announcements ++ [.civil s.civilMs] } }

/-! ### The long-operation slot (R172, R173) -/

/-- A long operation is in flight. -/
def Slot.busy : Slot → Bool
  | .empty => false
  | .inFlight _ _ _ => true
  | .done _ => false

/-- The unread completion that an acceptance displaces (R172). -/
def Slot.displaced : Slot → Option Completion
  | .empty => none
  | .inFlight _ _ _ => none
  | .done c => if c.unread then some c else none

/-- The slot becomes IN_FLIGHT at an acceptance (R172). -/
def State.slotAccepts (s : State) (kind : LongOp) (tag : Byte) : State :=
  { s with sl := { s.sl with slot := .inFlight kind tag s.now } }

/-- The owner ends a long operation: the slot becomes DONE, completion unread (R173). -/
def State.slotCompletes (s : State) (status : Status) (result : LongResult) : State :=
  match s.sl.slot with
  | .inFlight kind tag accepted =>
    { s with sl := { s.sl with slot := .done ⟨kind, tag, accepted, s.now, status, result, true⟩ } }
  | .empty => s
  | .done _ => s

/-! ### Free values -/

/-- A fresh count has been used up. -/
def State.useFree (s : State) : State := { s with freeCount := s.freeCount + 1 }

/-! ### Time passes (R1, R3, R14) -/

/-- How far trimmed time runs in one oscillator microsecond, with the fraction carried forward: whole µs and
the new fraction in 10^-9 µs (R1). -/
def trimmedAdvance (trim : Int) (fraction : Nat) : Nat × Nat :=
  let total := (1000000000 + trim).toNat + fraction
  (total / 1000000000, total % 1000000000)

/-- The residual moved `k` µs toward 0, and the correction this makes to station time (R14). -/
def slewBy (residual : Int) (k : Nat) : Int × Int :=
  let m := min k residual.natAbs
  if residual < 0 then (residual + m, (m : Int)) else (residual - m, -(m : Int))

/-- One oscillator microsecond at the Time Base: the elapsed count increases by one for each millisecond of them that
completes, and station time advances by the trimmed rate with one µs of slew for each completed millisecond of trimmed
time, but never past the last microsecond of day 65,535 (R1 to R3, R14; log 3). Under the end-of-range hold only the
elapsed count runs: that the fraction and the place in the millisecond of trimmed time stand still with station time is the
model's choice (log 3). -/
def TimeBase.tick (t : TimeBase) : TimeBase :=
  let run := { t with elapsed := t.elapsed + (t.oscPhase + 1) / 1000, oscPhase := (t.oscPhase + 1) % 1000 }
  if t.rangeHold then run
  else
    let (us, fraction) := trimmedAdvance t.trim t.fraction
    let phase := t.slewPhase + us
    let (residual, correction) := slewBy t.residual (phase / 1000)
    { run with
      stationUs := min Config.lastUs ((t.stationUs : Int) + us + correction).toNat
      fraction := fraction
      slewPhase := phase % 1000
      residual := residual }

/-- One oscillator microsecond passes over the part: everything it times is a mark on the elapsed count or
on station time. -/
def State.tick (s : State) : State := { s with tb := s.tb.tick }

end Sys2Proof.Machine
end

