-- ==== Sys2Proof/Machine/SettingsOps.lean ====
section
/-! DEFINITION. The working settings by item and number: ranges, reading, writing, the image of the stored
copy, and loading (Table 10-1, R181, R185, 11.5). -/

namespace Sys2Proof.Machine

/-- The settings items, coded 1 to 17 in the row order of Table 10-1. -/
inductive SettingItem
  | boundaryHour | civilOffset | holdoverLimit
  | linkEnable | linkLatency | silenceLimit
  | lostLimit | armingLead | retention
  | lineEnable | dialKind | impulseWidth | gap | holdWindow
  | classPriority | classLine | watchAttention
  deriving DecidableEq, Repr

def SettingItem.ofCode : Nat → Option SettingItem
  | 1 => some .boundaryHour
  | 2 => some .civilOffset
  | 3 => some .holdoverLimit
  | 4 => some .linkEnable
  | 5 => some .linkLatency
  | 6 => some .silenceLimit
  | 7 => some .lostLimit
  | 8 => some .armingLead
  | 9 => some .retention
  | 10 => some .lineEnable
  | 11 => some .dialKind
  | 12 => some .impulseWidth
  | 13 => some .gap
  | 14 => some .holdWindow
  | 15 => some .classPriority
  | 16 => some .classLine
  | 17 => some .watchAttention
  | _ => none

/-- The range of an item; a named value has the range of its codes (Table 10-1, 11.5). -/
def SettingItem.range : SettingItem → Int × Int
  | .boundaryHour => (0, 23)
  | .civilOffset => (-720, 720)
  | .holdoverLimit => (1, 1440)
  | .linkEnable => (0, 1)
  | .linkLatency => (0, 2000)
  | .silenceLimit => (2, 30)
  | .lostLimit => (5, 240)
  | .armingLead => (0, 120)
  | .retention => (0, 1440)
  | .lineEnable => (0, 1)
  | .dialKind => (0, 1)
  | .impulseWidth => (100, 1000)
  | .gap => (300, 5000)
  | .holdWindow => (0, 120)
  | .classPriority => (0, 15)
  | .classLine => (1, 2)
  | .watchAttention => (0, 1)

/-- An item whose values are named; it is never clamped (R182). -/
def SettingItem.named : SettingItem → Bool
  | .linkEnable | .lineEnable | .dialKind | .classLine | .watchAttention => true
  | .boundaryHour | .civilOffset | .holdoverLimit | .linkLatency | .silenceLimit | .lostLimit | .armingLead
  | .retention | .impulseWidth | .gap | .holdWindow | .classPriority => false

/-- The numbers an item's settings have: 0 alone, a link or line 0 to 3, or a class code 1 to 21. -/
def SettingItem.numbers : SettingItem → List Nat
  | .boundaryHour | .civilOffset | .holdoverLimit | .lostLimit | .armingLead | .retention
  | .watchAttention => [0]
  | .linkEnable | .linkLatency | .silenceLimit | .lineEnable | .dialKind | .impulseWidth | .gap
  | .holdWindow => [0, 1, 2, 3]
  | .classPriority | .classLine => [1, 2, 3, 4, 5, 6, 7, 8, 9, 10, 11, 12, 13, 14, 15, 16, 17, 18, 19, 20, 21]

def SettingItem.inRange (i : SettingItem) (v : Int) : Bool := decide (i.range.1 ≤ v) && decide (v ≤ i.range.2)

def SettingItem.clamp (i : SettingItem) (v : Int) : Int := clampInt i.range.1 i.range.2 v

/-- The link or line a number names. -/
def index4 (n : Nat) : Fin 4 := ⟨n % 4, Nat.mod_lt _ (by decide)⟩

/-- The class place a class code 1 to 21 names. -/
def index21 (code : Nat) : Fin 21 := ⟨(code - 1) % 21, Nat.mod_lt _ (by decide)⟩

def boolCode (b : Bool) : Int := if b then 1 else 0

/-- A working setting as a number (11.5). -/
def Settings.read (w : Settings) (i : SettingItem) (n : Nat) : Int :=
  match i with
  | .boundaryHour => w.boundaryHour
  | .civilOffset => w.civilOffset
  | .holdoverLimit => w.holdoverLimit
  | .linkEnable => boolCode (w.linkEnable.get (index4 n))
  | .linkLatency => w.linkLatency.get (index4 n)
  | .silenceLimit => w.silenceLimit.get (index4 n)
  | .lostLimit => w.lostLimit
  | .armingLead => w.armingLead
  | .retention => w.retention
  | .lineEnable => boolCode (w.lineEnable.get (index4 n))
  | .dialKind => (w.dialKind.get (index4 n)).code
  | .impulseWidth => w.impulseWidth.get (index4 n)
  | .gap => w.gap.get (index4 n)
  | .holdWindow => w.holdWindow.get (index4 n)
  | .classPriority => w.classPriority.get (index21 n)
  | .classLine => (w.classLine.get (index21 n)).code
  | .watchAttention => boolCode w.watchAttention

/-- A working setting written from a number within its range (11.5, R182). -/
def Settings.write (w : Settings) (i : SettingItem) (n : Nat) (v : Int) : Settings :=
  match i with
  | .boundaryHour => { w with boundaryHour := v }
  | .civilOffset => { w with civilOffset := v }
  | .holdoverLimit => { w with holdoverLimit := v }
  | .linkEnable => { w with linkEnable := w.linkEnable.set (index4 n) (decide (v = 1)) }
  | .linkLatency => { w with linkLatency := w.linkLatency.set (index4 n) v }
  | .silenceLimit => { w with silenceLimit := w.silenceLimit.set (index4 n) v }
  | .lostLimit => { w with lostLimit := v }
  | .armingLead => { w with armingLead := v }
  | .retention => { w with retention := v }
  | .lineEnable => { w with lineEnable := w.lineEnable.set (index4 n) (decide (v = 1)) }
  | .dialKind => { w with dialKind := w.dialKind.set (index4 n) (if v = 1 then .halfMinute else .minute) }
  | .impulseWidth => { w with impulseWidth := w.impulseWidth.set (index4 n) v }
  | .gap => { w with gap := w.gap.set (index4 n) v }
  | .holdWindow => { w with holdWindow := w.holdWindow.set (index4 n) v }
  | .classPriority => { w with classPriority := w.classPriority.set (index21 n) v }
  | .classLine => { w with classLine := w.classLine.set (index21 n) (if v = 1 then .urgent else .routine) }
  | .watchAttention => { w with watchAttention := decide (v = 1) }

def SettingItem.all : List SettingItem :=
  [.boundaryHour, .civilOffset, .holdoverLimit, .linkEnable, .linkLatency, .silenceLimit, .lostLimit,
   .armingLead, .retention, .lineEnable, .dialKind, .impulseWidth, .gap, .holdWindow, .classPriority,
   .classLine, .watchAttention]

/-- The 81 settings in item order, the numbers of each item ascending (11.5). -/
def settingPlaces : List (SettingItem × Nat) :=
  SettingItem.all.flatMap fun i => i.numbers.map (Prod.mk i)

/-- The settings image: 81 values as 2-byte signed numbers (11.5). -/
def Settings.image (w : Settings) : List (BitVec 16) :=
  settingPlaces.map fun p => BitVec.ofInt 16 (w.read p.1 p.2)

/-- The bytes of an image. -/
def imageBytes (im : List (BitVec 16)) : List Byte := im.flatMap fun v => toBe 2 v.toNat

/-- The check over an image (10.3, 11.5). -/
def imageCheck (im : List (BitVec 16)) : BitVec 16 := crc16 (imageBytes im)

/-- The settings of an image, each value clamped to its range (R185). -/
def Settings.ofImage (im : List (BitVec 16)) : Settings :=
  (settingPlaces.zip im).foldl (fun w e => w.write e.1.1 e.1.2 (e.1.1.clamp e.2.toInt)) Settings.default

/-- The load of a reset: the image when the stored copy is VALID, the defaults otherwise (R185). -/
def StoredCopy.load : StoredCopy → Settings × SettingsSource
  | .valid im _ => (Settings.ofImage im, .stored)
  | .blank => (Settings.default, .defaults)
  | .invalid => (Settings.default, .defaults)

/-- Every working setting holds a value within its range (R181). -/
def Settings.inRange (w : Settings) : Bool :=
  settingPlaces.all fun p => p.1.inRange (w.read p.1 p.2)

end Sys2Proof.Machine
end

