-- ==== Sys2Proof/Machine/Responses.lean ====
section
/-! DEFINITION. The bytes of a response frame (R169, R187, 11.2, 11.3): records packed with no padding, an optional field
behind its presence mark and zero over its whole width when absent, a list behind its count. The fields of a body stand
in the order of its owner's rule; widths and codes the manual does not give are free (log 7, log 29). -/

namespace Sys2Proof.Machine

/-! ### Fields without a width, and named values without a code (log 7) -/

/-- The fields whose width the manual does not give. -/
inductive OpenField
  | trim | holdoverTimer | timerLeft | absentResult | absentSummary

/-- The free width of a field. -/
def OpenField.width : OpenField → Nat
  | .trim => Config.freeWidth 0
  | .holdoverTimer => Config.freeWidth 1
  | .timerLeft => Config.freeWidth 2
  | .absentResult => Config.freeWidth 3
  | .absentSummary => Config.freeWidth 4

/-- Zero bytes over a width (R187). -/
def absent (width : Nat) : List Byte := List.replicate width 0

/-- The discipline states, in the order of Table 1-2. -/
def Discipline.freeCode : Discipline → Nat
  | .free => Config.freeCode 0 0
  | .acquire => Config.freeCode 0 1
  | .locked => Config.freeCode 0 2
  | .holdover => Config.freeCode 0 3
  | .drift => Config.freeCode 0 4

/-- The link states, in the order of Table 2-4. -/
def LinkState.freeCode : LinkState → Nat
  | .quiet => Config.freeCode 1 0
  | .up => Config.freeCode 1 1
  | .gap => Config.freeCode 1 2

/-- The line states, in the order of Table 7-3. -/
def LineState.freeCode : LineState → Nat
  | .off => Config.freeCode 2 0
  | .unset => Config.freeCode 2 1
  | .idle => Config.freeCode 2 2
  | .wait _ => Config.freeCode 2 3
  | .impulse _ => Config.freeCode 2 4
  | .gap _ => Config.freeCode 2 5
  | .fault _ => Config.freeCode 2 6

/-- The wait reasons, in the order of Table 7-2. -/
def WaitReason.freeCode : WaitReason → Nat
  | .holdWindow => Config.freeCode 3 0
  | .timeNotValid => Config.freeCode 3 1

/-- The states of the long-operation slot, in the order of 9.3. -/
def Slot.freeCode : Slot → Nat
  | .empty => Config.freeCode 4 0
  | .inFlight _ _ _ => Config.freeCode 4 1
  | .done _ => Config.freeCode 4 2

/-- The kinds of long operation, in the order of 9.3. -/
def LongOp.freeCode : LongOp → Nat
  | .repeatPath => Config.freeCode 5 0
  | .digestPlan => Config.freeCode 5 1
  | .saveSettings => Config.freeCode 5 2

/-! ### Records -/

/-- The condition record of Table 11-8, 44 bytes. -/
def ConditionView.bytes (v : ConditionView) : List Byte :=
  one v.subject.kindCode ++ toBe 2 v.subject.number ++ one v.condition.cls.code ++
    one (condStateCode (some v.condition.state)) ++ v.condition.raised.bytes ++ toBe 6 v.condition.mark ++
    one v.condition.count ++ toBeInt 1 v.priority ++ one v.line.code ++ v.condition.detail.bytes

def Summary.bytes : Summary → List Byte
  | .object o => o.bytes
  | .path p => p.bytes

def StoredCopy.code : StoredCopy → Nat
  | .blank => 0
  | .valid _ _ => 1
  | .invalid => 2

def SettingsSource.code : SettingsSource → Nat
  | .stored => 0
  | .defaults => 1

/-- A list: the number of its records, then the records (R187). -/
def listBytes {α : Type} (record : α → List Byte) (xs : List α) : List Byte :=
  one xs.length ++ xs.flatMap record

/-- A condition by its class and state, as READ OBJECT and READ PATH give it (R50, R103). -/
def condBytes (x : Class × CondState) : List Byte := one x.1.code ++ one (condStateCode (some x.2))

/-- The conditions of a record and its watch mark, each a list (R50, R103). -/
def marksBytes (conds : List (Class × CondState)) (watch : List Nat) : List Byte :=
  listBytes condBytes conds ++ listBytes one watch

/-- A stale flag with its stale-since date (Table 11-6). -/
def staleBytes (stale : Option StationQ) : List Byte := optionalBytes 7 (stale.map StationQ.bytes)

/-- GET TIME STATUS (R21). The widths of the two counts and of the residual are the model's (log 29). -/
def TimeStatus.bytes (v : TimeStatus) : List Byte :=
  one v.discipline.freeCode ++ one v.good ++ one v.outliers ++ toBeInt OpenField.trim.width v.trim ++
    toBeInt 8 v.residual ++ optionalBytes 8 (v.lastOffset.map (toBeInt 8)) ++
    optionalBytes 8 (v.lastStep.map (toBeInt 8)) ++ optionalBytes 6 (v.lastPulseMs.map stationBytes) ++
    toBe OpenField.holdoverTimer.width v.holdover ++ [flagByte v.timeValid] ++ [flagByte v.rangeHold]

/-- A pending marker: its gap start and cause (R40). -/
def GapMarker.bytes (m : GapMarker) : List Byte := m.start.bytes ++ one m.cause.code

/-- A fault record (2.6), 14 bytes. -/
def FaultRecord.bytes (c : FaultRecord) : List Byte :=
  one c.reason.code ++ c.date.bytes ++ optionalBytes 1 (c.kind.map fun b => [b]) ++
    optionalBytes 2 (c.object.map (toBe 2)) ++ one c.link.val

/-- READ LINK (R40). One byte says that the capture is locked and that its record is present: the two are one fact (R37);
that no further byte gives the lock is the model's choice (log 29). -/
def LinkView.bytes (v : LinkView) : List Byte :=
  [flagByte v.enabled] ++ one v.state.freeCode ++ one v.fill ++ optionalBytes 8 (v.pendingMarker.map GapMarker.bytes) ++
    optionalBytes 7 (v.lastValid.map StationQ.bytes) ++ optionalBytes 7 (v.lastAccepted.map StationQ.bytes) ++
    optionalBytes 14 (v.capture.map FaultRecord.bytes) ++ [flagByte v.further]

/-- A movement in flight (Table 3-2), 22 bytes. -/
def Movement.bytes (m : Movement) : List Byte :=
  one m.toward.code ++ m.start.bytes ++ toBe 6 m.startMark ++ [flagByte m.reversed]

/-- A clearing in flight (Table 3-3), 20 bytes. -/
def Clearing.bytes (c : Clearing) : List Byte := c.request.bytes ++ toBe 6 c.requestMark

/-- The fields of a kind, in the order of Tables 3-2 to 3-4 (R50). -/
def KindView.bytes : KindView → List Byte
  | .point p =>
    one p.detected.code ++ optionalBytes 1 (p.commanded.map fun q => one q.code) ++ toBe 2 p.throwLimit ++
      optionalBytes 22 (p.movement.map Movement.bytes) ++ optionalBytes 2 (p.lastDuration.map DurationCode.bytes) ++
      toBe 2 p.count
  | .signal g =>
    one g.requested.code ++ one g.aspect.code ++ toBe 2 g.clearLimit ++
      optionalBytes 20 (g.clearing.map Clearing.bytes) ++ optionalBytes 2 (g.lastDuration.map DurationCode.bytes)
  | .berth occupancy timing expectations =>
    one occupancy.code ++ (StateOfRecord.occupancy occupancy).headcodeBytes ++ [flagByte timing] ++ toBe 2 expectations

def KindView.kindOf : KindView → ObjectKind
  | .point _ => .point
  | .signal _ => .signal
  | .berth _ _ _ => .berth

/-- READ OBJECT (R50): the common fields in the order of Table 3-1, then those of the kind. -/
def ObjectView.bytes (v : ObjectView) : List Byte :=
  toBe 2 v.number ++ one v.kind.kindOf.code ++ one v.link.val ++ v.defined.bytes ++ v.since.bytes ++ staleBytes v.stale ++
    marksBytes v.conds v.watch ++ v.kind.bytes

/-- The outcome part behind a timing-point entry of READ PATH, 20 bytes (11.3). -/
def outcomeBytes : Option OutcomePart → List Byte
  | none => absent 20
  | some o =>
    one 1 ++ ((o.actual.map Date.bytes).getD (absent 14)) ++ one o.outcome.code ++
      optionalBytes 2 (o.deviation.map (toBeInt 2)) ++ [flagByte o.wrongRoute]

/-- A timing point of READ PATH: its index, its entry and its outcome part (R103). -/
def pointBytes (x : TimingPoint × Nat) : List Byte := one x.2 ++ x.1.plan.bytes ++ outcomeBytes x.1.outcome

/-- A deadline: its time, then its stage (Table 5-1). -/
def Deadline.bytes (d : Deadline) : List Byte := toBeInt 8 d.time ++ one d.stage.code

/-- READ PATH (R103): the fields in the order of Table 5-1, the timing-point count, and the timing points. -/
def PathView.bytes (v : PathView) : List Byte :=
  toBe 2 v.number ++ v.headcode.bytes ++ toBe 2 v.day ++ one v.state.code ++ toBe 8 v.activation ++ one v.passed ++
    toBeInt 2 v.carried ++ optionalBytes 2 (v.lastDeviation.map (toBeInt 2)) ++
    optionalBytes 9 (v.deadline.map Deadline.bytes) ++ optionalBytes 14 (v.ended.map Date.bytes) ++
    marksBytes v.conds v.watch ++ [flagByte v.templateInUse] ++ one v.count ++
    listBytes pointBytes (v.points.zipIdx v.first)

/-- An expectation of READ BERTH QUEUE (R105), 12 bytes. -/
def ExpectationView.bytes (v : ExpectationView) : List Byte :=
  toBe 2 v.position ++ toBe 2 v.path ++ v.headcode.bytes ++ one v.index ++ one v.kind.code ++ toBe 2 v.planned

/-- The result of a long operation (R173, R184). -/
def LongResult.bytes : LongResult → List Byte
  | .copies n => one n
  | .digest crc paths points disturbed => toBe 4 crc.toNat ++ toBe 2 paths ++ toBe 2 points ++ [flagByte disturbed]
  | .save check => toBe 2 check.toNat

/-- What a long operation holds from its acceptance on (9.3), 16 bytes. -/
def acceptedBytes (kind : LongOp) (tag : Byte) (accepted : Date) : List Byte :=
  one kind.freeCode ++ [tag] ++ accepted.bytes

/-- What a completion adds (9.3). -/
def Completion.doneBytes (c : Completion) : List Byte :=
  c.completed.bytes ++ one c.status.code ++ c.result.bytes ++ [flagByte c.unread]

/-- The width of the result of a kind of long operation (R173, R184). -/
def LongOp.resultWidth : LongOp → Nat
  | .repeatPath => 1
  | .digestPlan => 9
  | .saveSettings => 2

/-- The fields of a completion that is absent, with a result of a width: zero bytes over the whole width (R187). -/
def absentDone (resultWidth : Nat) : List Byte := absent (14 + 1 + resultWidth + 1)

/-- The fields of a slot or of a completion of no kind: zero bytes, the result over a free width (R187; log 7). -/
def absentOperation : List Byte := absent 16 ++ absentDone OpenField.absentResult.width

/-- The long-operation slot in GET STATUS (R179). -/
def Slot.bytes (x : Slot) : List Byte :=
  one x.freeCode ++
    match x with
    | .empty => absentOperation
    | .inFlight kind tag accepted => acceptedBytes kind tag accepted ++ absentDone kind.resultWidth
    | .done c => acceptedBytes c.kind c.tag c.accepted ++ c.doneBytes

/-- A displaced completion in a STARTED response (R172). -/
def displacedBytes : Option Completion → List Byte
  | none => one 0 ++ absentOperation
  | some c => one 1 ++ acceptedBytes c.kind c.tag c.accepted ++ c.doneBytes

/-- The latch record (R174), 7 bytes. -/
def LatchRecord.bytes (v : LatchRecord) : List Byte :=
  one v.reason.code ++ one v.code.code ++ [v.tag] ++ toBe 2 v.subject ++ optionalBytes 1 (v.index.map one)

/-- The latch: its record, or marked empty (R175, R179). -/
def latchBytes (latch : Option LatchRecord) : List Byte := optionalBytes 7 (latch.map LatchRecord.bytes)

/-- The wait reason, in WAIT (R149). -/
def LineState.waitView : LineState → Option WaitReason
  | .wait reason => some reason
  | .off | .unset | .idle | .impulse _ | .gap _ | .fault _ => none

/-- The impulse being driven, in IMPULSE (R149). -/
def LineState.impulseView : LineState → Option Impulse
  | .impulse c => some c
  | .off | .unset | .idle | .wait _ | .gap _ | .fault _ => none

/-- READ LINE (R149). No code stands for UNSET: that an UNSET position is sent as an absent optional field is the model's
choice (log 29). -/
def LineView.bytes (v : LineView) : List Byte :=
  [flagByte v.enabled] ++ one v.kind.code ++ toBeInt 2 v.width ++ toBeInt 2 v.gap ++ toBeInt 2 v.holdWindow ++
    one v.state.freeCode ++ optionalBytes 1 (v.state.waitView.map fun r => one r.freeCode) ++
    optionalBytes 2 (v.dial.position.map (toBe 2)) ++ one ((v.dial.last.map Polarity.code).getD 0) ++ [flagByte v.resolving] ++
    optionalBytes 2 (v.state.impulseView.map fun c => one c.polarity.code ++ one c.form.code) ++
    optionalBytes 1 (v.lastSense.map fun x => one (senseCode x)) ++
    optionalBytes OpenField.timerLeft.width (v.timerLeft.map (toBe OpenField.timerLeft.width)) ++
    [flagByte v.disablingDeferred] ++ [flagByte v.kindDeferred] ++ toBe 4 v.civilMs ++
    optionalBytes 6 (v.target.map fun t => toBe 2 t.1 ++ toBe 2 t.2.1 ++ toBe 2 t.2.2)

/-- A subject of a watch slot: its kind and its number; NONE is zero bytes (Table 11-1, Table 11-3). -/
def Watched.bytes : Watched → List Byte
  | .none => absent 3
  | .object n => one 3 ++ toBe 2 n
  | .path n => one 4 ++ toBe 2 n

/-- A summary behind its slot; absent for a slot of subject NONE, whose kind byte before it tells so (R178, R187). -/
def slotSummaryBytes : Option Summary → List Byte
  | none => absent OpenField.absentSummary.width
  | some v => v.bytes

/-- The summary that SET WATCH gives; a slot set to NONE has no subject to give one of, and the body is empty (R176;
log 35). -/
def setSummaryBytes : Option Summary → List Byte
  | none => []
  | some v => v.bytes

/-- A slot of READ WATCH (R178). -/
def WatchView.bytes (v : WatchView) : List Byte :=
  v.slot.subject.bytes ++ [flagByte v.slot.changed] ++ optionalBytes 3 (v.slot.retired.map Watched.bytes) ++
    slotSummaryBytes v.summary

/-- GET STATUS (R179), the identity first (11.1). The 2 bytes of each of the four counts are the model's (log 29). -/
def StatusView.bytes (v : StatusView) : List Byte :=
  toBe 2 v.vendor.toNat ++ toBe 2 v.part.toNat ++ [v.issue] ++ v.slot.bytes ++ latchBytes v.latch ++ one v.source.code ++
    toBe 2 v.objects ++ toBe 2 v.paths ++ toBe 2 v.poolFree ++ toBe 2 v.poolReserved ++ one v.discipline.freeCode ++
    [flagByte v.timeValid]

/-- GET TIME (R20). -/
def timeBytes (ms : Nat) (quality : Quality) (valid : Bool) (elapsed civilMs : Nat) : List Byte :=
  stationBytes ms ++ one quality.code ++ [flagByte valid] ++ toBe 6 elapsed ++ toBe 4 civilMs

/-! ### Bodies and frames -/

/-- The bytes of a body. That the sixteen slots of READ WATCH stand behind a count, as a list does, is the model's choice
(log 29). -/
def Body.bytes : Body → List Byte
  | .none => []
  | .date d => d.bytes
  | .pathState st => one st.code
  | .value v => toBeInt 2 v
  | .acknowledged st => one (condStateCode st)
  | .time ms quality valid elapsed civilMs => timeBytes ms quality valid elapsed civilMs
  | .timeStatus v => v.bytes
  | .link v => v.bytes
  | .object v => v.bytes
  | .objects found next => listBytes ObjectSummary.bytes found ++ toBe 2 next
  | .path v => v.bytes
  | .paths found next => listBytes PathSummary.bytes found ++ toBe 2 next
  | .berthQueue length found => toBe 2 length ++ listBytes ExpectationView.bytes found
  | .started displaced => displacedBytes displaced
  | .line v => v.bytes
  | .condition v others after =>
    v.bytes ++ toBe 2 others ++
      match after with
      | .none => []
      | some st => one (condStateCode st)
  | .conditions found => listBytes ConditionView.bytes found
  | .summary v => setSummaryBytes v
  | .watch slots => listBytes WatchView.bytes slots
  | .status v => v.bytes
  | .latch v => latchBytes v
  | .settings w source copy => imageBytes w.image ++ one source.code ++ one copy.code

/-- The response frame: code, tag, status, flags, body length, body (Table 11-2). -/
def Response.bytes (r : Response) : List Byte :=
  [r.code, r.tag] ++ one r.status.code ++ [flagByte r.lostRequest] ++ toBe 2 r.body.bytes.length ++ r.body.bytes

/-- SL_READY is high while a response is pending (R169). -/
def State.slReady (s : State) : Bool :=
  match s.sl.transaction with
  | .closed => false
  | .inWork _ _ => false
  | .pending _ => true

end Sys2Proof.Machine
end

