-- ==== Sys2Proof/Machine/Operands.lean ====
section
/-! DEFINITION. Operands: request frames as the Service Link takes and judges them (R168 to R171, R186), the
edit fault latch around change requests (R174, R175), and the timing-point entry (Table 11-5, R89). -/

namespace Sys2Proof.Machine

/-! ### Collecting a frame (R168) -/

/-- What the Service Link keeps of a frame: at most 1,024 body bytes, with the count of those shifted in; further bytes
are discarded (R168, R171). -/
def collect (f : Frame) : Collected := ⟨f.tag, f.len, f.body.take Config.maxBody, f.body.length⟩

/-- A frame that leaves these bytes, the discarded ones zeros: it stands for the frame in work in its service, which
names no discarded byte. -/
def Collected.frame (c : Collected) : Frame := ⟨c.tag, c.len, c.body ++ List.replicate (c.shifted - c.body.length) 0⟩

/-! ### Taking a frame (R170) -/

/-- The request whose answer is being gathered. -/
def Gathered.code : Gathered → ReqCode
  | .watch _ _ => .readWatch
  | .status _ _ => .getStatus

/-- The code byte of the request in work. -/
def InWork.code : InWork → Byte
  | .request code _ => BitVec.ofNat 8 code.code
  | .gathering _ taken => BitVec.ofNat 8 taken.code.code
  | .unnamed code _ => code

/-- The tag of the request in work. -/
def InWork.tag : InWork → Byte
  | .request _ frame => frame.tag
  | .gathering frame _ => frame.tag
  | .unnamed _ tag => tag

/-- The answer of a block: its records, the status and the body. -/
structure Reply where
  state : State
  status : Status
  body : Body

/-- The response to a frame is made ready, with LOST_REQUEST when one was recorded; SL_READY rises (R169 to R171).
`out` holds the bytes shifted out in the last transfer. -/
def Reply.makeReady (r : Reply) (work : InWork) (lost : Bool) (out : List Byte) : State :=
  { r.state with sl := { r.state.sl with
      transaction := .pending ⟨work.code, work.tag, r.status, lost, r.body⟩
      out := out } }

/-- The transaction changed. -/
def State.withTransaction (s : State) (t : Transaction) : State :=
  { s with sl := { s.sl with transaction := t } }

/-- The bytes shifted out in a transfer of `count` bytes after a WRITE command byte: a 0 for each (R167). -/
def State.shiftZeros (s : State) (count : Nat) : State :=
  { s with sl := { s.sl with out := List.replicate count 0 } }

/-- A WRITE transfer that delivers a frame of `count` bytes after the command byte: with no transaction open the frame
is admitted, and answered in the same event or left in work; otherwise it is discarded, and LOST_REQUEST recorded for the
response of the request in work, or set in the pending response (R170). -/
def State.writeFrame (s : State) (atOnce : Bool) (work : InWork) (count : Nat) (serve : State → Reply) : State :=
  match s.sl.transaction with
  | .closed =>
    if atOnce then (serve s).makeReady work false (List.replicate count 0)
    else (s.withTransaction (.inWork work false)).shiftZeros count
  | .inWork other _ => (s.withTransaction (.inWork other true)).shiftZeros count
  | .pending r => (s.withTransaction (.pending { r with lostRequest := true })).shiftZeros count

/-- The frame in work is served, from the records as they stand now, and its response made ready (R170, R171); nothing
where another frame, or none, is in work. -/
def State.serveFrame (s : State) (work : InWork) (serve : State → Reply) : State :=
  match s.sl.transaction with
  | .inWork present lost =>
    if present = work then (serve (s.withTransaction .closed)).makeReady work lost s.sl.out else s
  | .closed => s
  | .pending _ => s

/-- A frame at a phase of its transaction; no effect while RESTART_N is held (R167, R170, R180). -/
def State.takeFrame (s : State) (phase : Phase) (work : InWork) (count : Nat) (serve : State → Reply) : State :=
  if s.held then s
  else
    match phase with
    | .whole => s.writeFrame true work count serve
    | .write => s.writeFrame false work count serve
    | .service => s.serveFrame work serve

/-! ### Judging a frame (R171, R186) -/

/-- The body length that Table 11-3 gives for a code; LOAD PATH's depends on its count byte. -/
def bodyLength (body : List Byte) : ReqCode → Nat
  | .setTime => 6
  | .getTime => 0
  | .getTimeStatus => 0
  | .readLink => 1
  | .unlockCapture => 1
  | .defineObject => 7
  | .amendObject => 8
  | .retireObject => 2
  | .readObject => 2
  | .findObjects => 5
  | .loadPath => 9 + 14 * (byteAt body 8).toNat
  | .amendTimingPoint => 17
  | .shiftPath => 4
  | .copyPath => 10
  | .repeatPath => 8
  | .armPath => 2
  | .cancelPath => 2
  | .retirePath => 2
  | .readPath => 3
  | .findPaths => 7
  | .readBerthQueue => 4
  | .digestPlan => 0
  | .dialSet => 4
  | .readLine => 1
  | .nextCondition => 1
  | .ackCondition => 11
  | .readConditions => 3
  | .setWatch => 4
  | .readWatch => 0
  | .getStatus => 0
  | .clearEditFault => 0
  | .setSetting => 4
  | .readSettings => 0
  | .saveSettings => 0

/-- Every presence byte holds 0 or 1, and the presence mask of AMEND OBJECT no bit above 0x08 (R186). -/
def presenceOk (body : List Byte) : ReqCode → Bool
  | .defineObject => decide ((byteAt body 4).toNat ≤ 1)
  | .amendObject => decide ((byteAt body 2).toNat ≤ 15)
  | .nextCondition => decide ((byteAt body 0).toNat ≤ 1)
  | .ackCondition => decide ((byteAt body 4).toNat ≤ 1)
  | .setTime | .getTime | .getTimeStatus | .readLink | .unlockCapture | .retireObject | .readObject
  | .findObjects | .loadPath | .amendTimingPoint | .shiftPath | .copyPath | .repeatPath | .armPath
  | .cancelPath | .retirePath | .readPath | .findPaths | .readBerthQueue | .digestPlan | .dialSet | .readLine
  | .readConditions | .setWatch | .readWatch | .getStatus | .clearEditFault | .setSetting | .readSettings
  | .saveSettings => true

/-- Checks 2 and 3 of R171: the length field does not exceed 1,024 and agrees with the count of body bytes shifted in,
the discarded ones counted, and the body is well formed (R186). -/
def frameOk (code : ReqCode) (f : Collected) : Bool :=
  decide (f.len.toNat ≤ Config.maxBody) && decide (f.len.toNat = f.shifted) &&
    decide (f.body.length = bodyLength f.body code) && presenceOk f.body code

/-- The long requests (R171, 9.3). -/
def isLong : ReqCode → Bool
  | .repeatPath | .digestPlan | .saveSettings => true
  | .setTime | .getTime | .getTimeStatus | .readLink | .unlockCapture | .defineObject | .amendObject
  | .retireObject | .readObject | .findObjects | .loadPath | .amendTimingPoint | .shiftPath | .copyPath
  | .armPath | .cancelPath | .retirePath | .readPath | .findPaths | .readBerthQueue | .dialSet | .readLine
  | .nextCondition | .ackCondition | .readConditions | .setWatch | .readWatch | .getStatus | .clearEditFault
  | .setSetting | .readSettings => false

/-- The checks of R171 in order, then the owner. -/
def judge (code : ReqCode) (f : Collected) (serve : State → Reply) (s : State) : Reply :=
  if !frameOk code f then ⟨s, .badRequest, .none⟩
  else if isLong code && s.sl.slot.busy then ⟨s, .busy, .none⟩
  else serve s

/-- A frame of Table 9-2, at its phase. The owner sees a frame that has passed the checks, of which every byte was
kept. -/
def State.request (s : State) (code : ReqCode) (f : ReqFrame) (serve : State → Reply) : State :=
  let kept := collect f.toFrame
  s.takeFrame f.phase (.request code kept) (4 + f.body.length) (judge code kept serve)

/-- A lookup or another answer that leaves the records as they are. -/
def Reply.same (s : State) (status : Status) (body : Body) : Reply := ⟨s, status, body⟩

/-! ### Change requests and the edit fault latch (R174, R175) -/

/-- What the owner of a change request decides. -/
inductive Edit
  /-- A refusal, with the subject number and the timing-point index for the latch (R174). -/
  | refuse (status : Status) (subject : Nat) (index : Option Nat)
  /-- An acceptance, with the records after it. -/
  | accept (state : State) (status : Status) (body : Body)

/-- The refusals that set the latch (R174, Table 9-1). -/
def Status.latches : Status → Bool
  | .numberInUse | .badObject | .outOfRange | .order | .poolFull | .storeFull | .notWhileRunning | .inUse
  | .stateConflict | .badHeadcode => true
  | .ok | .started | .clamped | .badRequest | .noSuch | .editBlocked | .busy | .referenceInUse | .lineBusy
  | .storeFailed => false

/-- A refusal reaches the latch in the same event (R174). -/
def State.latchRefusal (s : State) (code : ReqCode) (tag : Byte) (status : Status) (subject : Nat)
    (index : Option Nat) : State :=
  if status.latches then { s with sl := { s.sl with latch := some ⟨status, code, tag, subject, index⟩ } }
  else s

/-- A change request at its owner: EDIT_BLOCKED first while the latch is set, then the owner's checks
(R175, R89, 3.2). -/
def change (code : ReqCode) (tag : Byte) (edit : State → Edit) (s : State) : Reply :=
  if s.sl.latch.isSome then ⟨s, .editBlocked, .none⟩
  else
    match edit s with
    | .refuse status subject index => ⟨s.latchRefusal code tag status subject index, status, .none⟩
    | .accept s' status body => ⟨s', status, body⟩

/-! ### The timing-point entry (Table 11-5, R89 check 2) -/

/-- A route check: both its parts or neither (R89). -/
def routeOf (point expected : Nat) : Option (Option RouteCheck) :=
  if point = 0 then (if expected = 0 then some none else none)
  else if 4095 < point then none
  else (Pos.ofCode expected).map fun p => some ⟨point, p⟩

/-- The plan fields of an entry, when each lies within its range (Table 5-2). -/
def planOf (body : List Byte) (offset : Nat) : Option Plan :=
  let berth := field body offset 2
  let planned := field body (offset + 3) 2
  let early := field body (offset + 5) 2
  let late := field body (offset + 7) 2
  let allowance := field body (offset + 9) 2
  if 1 ≤ berth ∧ berth ≤ 4095 ∧ planned ≤ 3599 ∧ early ≤ 1800 ∧ late ≤ 1800 ∧ allowance ≤ 1800 then
    match PointKind.ofCode (byteAt body (offset + 2)).toNat,
        routeOf (field body (offset + 11) 2) (byteAt body (offset + 13)).toNat with
    | some kind, some route => some ⟨berth, kind, planned, early, late, allowance, route⟩
    | _, _ => none
  else none

/-- The event is over: the attention lines are brought up to date (R159). -/
def State.answer (s : State) : Host.Outcome State Fault Refusal := .next s.settle

/-- An event of a block that works only while RESTART_N is not held (R24, R42, R135, R152). -/
def State.whenRunning (s : State) (f : State → State) : State := if s.held then s else f s

end Sys2Proof.Machine
end

