-- ==== Sys2Proof/Machine/Conditions.lean ====
section
/-! DEFINITION. The requests of the Condition Unit: the arbiter, acknowledgement and reading (chapter 8). -/

namespace Sys2Proof.Machine

/-! ### NEXT CONDITION (R160, R161) -/

/-- The conditions considered: unacknowledged, of a class of priority 1 or more (R160). -/
def State.considered (s : State) : List (Subject × Condition) := s.conditions.filter fun x => s.settings.calls x.2

/-- One condition is selected before another on priority and raised mark (R160, steps 1 and 2). -/
def Settings.outranks (w : Settings) (a b : Condition) : Bool :=
  decide (w.priority b.cls < w.priority a.cls) ||
    (decide (w.priority a.cls = w.priority b.cls) && decide (a.mark < b.mark))

/-- The condition selected from a list in subject and class order: a later one is taken only when it outranks the
ones before it (R160, steps 3 and 4). -/
def Settings.select (w : Settings) : List (Subject × Condition) → Option (Subject × Condition)
  | [] => none
  | x :: t =>
    match w.select t with
    | none => some x
    | some y => if w.outranks y.2 x.2 then some y else some x

/-- A condition as the requests give it, with its class's priority and line at this moment (R161, R164). -/
def State.conditionView (s : State) (subject : Subject) (c : Condition) : ConditionView :=
  ⟨subject, c, s.settings.priority c.cls, s.settings.line c.cls⟩

/-- NEXT CONDITION at the Condition Unit (R160, R161). -/
def serveNextCondition (body : List Byte) (s : State) : Reply :=
  match s.settings.select s.considered with
  | none => .same s .noSuch .none
  | some (subject, c) =>
    let view := s.conditionView subject c
    let others := s.considered.length - 1
    if (byteAt body 0).toNat = 1 then
      let s' := s.acknowledge subject c.cls
      ⟨s', .ok, .condition view others (some ((s'.condsOf subject).stateOf c.cls))⟩
    else .same s .ok (.condition view others none)

/-- NEXT_CONDITION (R160, R161). -/
def execNextCondition (f : ReqFrame) (s : State) : Host.Outcome State Fault Refusal :=
  (s.request .nextCondition f (serveNextCondition f.body)).answer

/-! ### Subjects named by a request (R162, steps 1 and 2) -/

/-- The subject a kind code and a number name, when the number lies within the range of its kind (R162). -/
def subjectOf (kind number : Nat) : Option Subject :=
  match kind with
  | 0 => if number = 0 then some .timeBase else none
  | 1 => if h : number < 4 then some (.link ⟨number, h⟩) else none
  | 2 => if h : number < 4 then some (.line ⟨number, h⟩) else none
  | 3 => if 1 ≤ number ∧ number ≤ 4095 then some (.object number) else none
  | 4 => if 1 ≤ number ∧ number ≤ 65535 then some (.path number) else none
  | _ => none

/-- A subject exists: an object or a path must be a stored record (R162). -/
def State.subjectExists (s : State) : Subject → Bool
  | .timeBase => true
  | .link _ => true
  | .line _ => true
  | .object n => (s.object n).isSome
  | .path n => (s.path n).isSome

/-! ### ACK CONDITION (R162) -/

/-- The subject and class an ACK CONDITION names, within their ranges (R162, step 1). -/
def ackFields (body : List Byte) : Option (Subject × Class) :=
  match subjectOf (byteAt body 0).toNat (field body 1 2), Class.ofCode (byteAt body 3).toNat with
  | some subject, some c => if c.subjectCode = subject.kindCode then some (subject, c) else none
  | _, _ => none

/-- The raised mark an ACK CONDITION gives agrees, or none is given (R162, step 4). -/
def ackMarkOk (body : List Byte) (c : Condition) : Bool :=
  decide ((byteAt body 4).toNat = 0) || decide (field body 5 6 = c.mark)

/-- ACK CONDITION at the Condition Unit (R162). -/
def serveAckCondition (body : List Byte) (s : State) : Reply :=
  match ackFields body with
  | none => .same s .outOfRange .none
  | some (subject, cls) =>
    if !s.subjectExists subject then .same s .noSuch .none
    else
      match (s.condsOf subject).find cls with
      | none => .same s .noSuch .none
      | some c =>
        if c.state.unack && ackMarkOk body c then
          let s' := s.acknowledge subject cls
          ⟨s', .ok, .acknowledged ((s'.condsOf subject).stateOf cls)⟩
        else .same s .noSuch .none

/-- ACK_CONDITION (R162). -/
def execAckCondition (f : ReqFrame) (s : State) : Host.Outcome State Fault Refusal :=
  (s.request .ackCondition f (serveAckCondition f.body)).answer

/-! ### READ CONDITIONS (R164) -/

/-- READ CONDITIONS at the Condition Unit (R164). -/
def serveReadConditions (body : List Byte) (s : State) : Reply :=
  match subjectOf (byteAt body 0).toNat (field body 1 2) with
  | none => .same s .outOfRange .none
  | some subject =>
    if s.subjectExists subject then
      .same s .ok (.conditions (List.map (s.conditionView subject) (s.condsOf subject)))
    else .same s .noSuch .none

/-- READ_CONDITIONS (R164). -/
def execReadConditions (f : ReqFrame) (s : State) : Host.Outcome State Fault Refusal :=
  (s.request .readConditions f (serveReadConditions f.body)).answer

end Sys2Proof.Machine
end

