-- ==== Sys2Proof/Machine/LineOps.lean ====
section
/-! DEFINITION. The Slave Clock Driver's shared operations: targets, evaluation, impulses, enabling and dial kind
changes (chapter 7). -/

namespace Sys2Proof.Machine

/-! ### Targets (R137) -/

/-- The positions round the face, P (Table 7-1). -/
def DialKind.positions : DialKind → Nat
  | .minute => 720
  | .halfMinute => 1440

/-- The dial unit in ms (Table 7-1). -/
def DialKind.unit : DialKind → Nat
  | .minute => 60000
  | .halfMinute => 30000

/-- The target position for a civil time of day (R137). -/
def DialKind.target (k : DialKind) (civilMs : Nat) : Nat := civilMs / k.unit % k.positions

/-- The distance round the face from one position forward to another, modulo P (R137). -/
def DialKind.distance (k : DialKind) (start stop : Nat) : Nat :=
  (((stop : Int) - start).emod (k.positions : Int)).toNat

/-- The hold window in dial units (R138). -/
def DialKind.window (k : DialKind) (minutes : Int) : Int :=
  match k with
  | .minute => minutes
  | .halfMinute => minutes * 2

def Polarity.opposite : Polarity → Polarity
  | .positive => .negative
  | .negative => .positive

/-! ### Evaluation (R138) -/

/-- An impulse that starts now (R140). -/
def State.impulse (s : State) (i : Fin 4) (polarity : Polarity) (form : ImpulseForm) : LineState :=
  .impulse ⟨polarity, form, s.elapsed, (s.settings.impulseWidth.get i).toNat, false⟩

/-- What an evaluation of a line at a set position decides (R138). -/
def State.judgeLine (s : State) (i : Fin 4) (l : Line) (position : Nat) (last : Polarity) : LineState :=
  let target := l.kind.target s.civilMs
  let behind := l.kind.distance position target
  let ahead := l.kind.distance target position
  if !s.tb.timeValid then .wait .timeNotValid
  else if l.resolving then s.impulse i last .resolving
  else if behind = 0 then .idle
  else if 1 ≤ ahead ∧ (ahead : Int) ≤ l.kind.window (s.settings.holdWindow.get i) then .wait .holdWindow
  else s.impulse i last.opposite .counted

/-- The decision of a line; its state as it stands while the position is UNSET (R138). -/
def State.decision (s : State) (i : Fin 4) : LineState :=
  let l := s.line i
  match l.dial with
  | .at position last => s.judgeLine i l position last
  | .unset _ => l.state
  | .unknown => l.state

/-- A line evaluates (R138). -/
def State.evaluate (s : State) (i : Fin 4) : State := s.onLine i fun l => { l with state := s.decision i }

/-- IDLE and WAIT are the resting states (7.1). -/
def LineState.resting : LineState → Bool
  | .idle => true
  | .wait _ => true
  | .off | .unset | .impulse _ | .gap _ | .fault _ => false

/-- A line in IDLE or WAIT evaluates at once; another is unaffected (R139, R145). -/
def State.evaluateResting (s : State) (i : Fin 4) : State :=
  if (s.line i).state.resting then s.evaluate i else s

/-- Each line in IDLE or WAIT evaluates (R139, R145). -/
def State.evaluateAll (s : State) : State := four.foldl State.evaluateResting s

/-! ### Dials -/

/-- The position becomes UNSET and the last polarity is kept (R148). -/
def Dial.forget : Dial → Dial
  | .at _ last => .unset last
  | .unset last => .unset last
  | .unknown => .unknown

/-- The position is set. -/
def Dial.isSet : Dial → Bool
  | .at _ _ => true
  | .unset _ => false
  | .unknown => false

/-- A counted impulse advances the position by one, modulo P, and its polarity is the last polarity (R140). -/
def Dial.advanced (d : Dial) (k : DialKind) (polarity : Polarity) : Dial :=
  match d with
  | .at position _ => .at ((position + 1) % k.positions) polarity
  | .unset last => .unset last
  | .unknown => .unknown

/-- A line after a completed impulse, its state apart (R140). -/
def Line.completed (l : Line) (c : Impulse) : Line :=
  match c.form with
  | .counted => { l with dial := l.dial.advanced l.kind c.polarity }
  | .resolving => { l with resolving := false }

/-! ### DIAL_UNSET (R150) -/

/-- DIAL_UNSET begins with a reason, unless active (R150, R154). -/
def State.beginDialUnset (s : State) (i : Fin 4) (reason : UnsetReason) : State :=
  s.beginCause (.line i) .dialUnset (.dialUnset (s.line i).kind reason)

/-! ### Enable and dial kind (R147, R148) -/

/-- A line is disabled to OFF: its position, polarity and resolving flag are kept, and both causes end (R147,
R150). -/
def State.disableLine (s : State) (i : Fin 4) : State :=
  ((s.onLine i fun l => { l with enabled := false, state := .off }).endCause (.line i) .lineFault).endCause
    (.line i) .dialUnset

/-- A line is enabled from OFF: into UNSET, or an evaluation as if from IDLE (R147). -/
def State.enableLine (s : State) (i : Fin 4) : State :=
  if (s.line i).dial.isSet then (s.onLine i fun l => { l with enabled := true, state := .idle }).evaluate i
  else (s.onLine i fun l => { l with enabled := true, state := .unset }).beginDialUnset i .enabled

/-- A line with a new dial kind: UNSET if enabled, OFF otherwise (R148). -/
def Line.rekinded (l : Line) (k : DialKind) : Line :=
  { l with
    kind := k
    dial := l.dial.forget
    resolving := false
    state := if l.enabled then .unset else .off }

/-- A change of dial kind is applied (R148). -/
def State.changeKind (s : State) (i : Fin 4) (k : DialKind) : State :=
  let s' := (s.onLine i fun l => l.rekinded k).endCause (.line i) .lineFault
  if (s.line i).enabled then s'.beginDialUnset i .kindChange else s'

/-- The dial kind setting is applied when it differs from the record's (R148). -/
def State.applyKind (s : State) (i : Fin 4) : State :=
  if s.settings.dialKind.get i = (s.line i).kind then s else s.changeKind i (s.settings.dialKind.get i)

/-- A line is in IMPULSE. -/
def LineState.driving : LineState → Bool
  | .impulse _ => true
  | .off | .unset | .idle | .wait _ | .gap _ | .fault _ => false

/-- The end of an impulse: the line rests as given, or a deferred disabling is applied, and then a deferred kind
change (R147, R148). -/
def State.restAfter (s : State) (i : Fin 4) (rest : LineState) : State :=
  let s' := s.onLine i fun l => { l with state := rest }
  let s'' := if s.settings.lineEnable.get i then s' else s'.disableLine i
  s''.applyKind i

/-- A change of a line's enable setting (R147): a disabling in IMPULSE waits for its end. -/
def State.lineEnableChanged (s : State) (i : Fin 4) : State :=
  let l := s.line i
  if s.settings.lineEnable.get i then (if l.enabled then s else s.enableLine i)
  else if l.enabled ∧ !l.state.driving then s.disableLine i
  else s

/-- A change of a line's dial kind setting (R148): in IMPULSE it waits for its end. -/
def State.dialKindChanged (s : State) (i : Fin 4) : State :=
  if (s.line i).state.driving then s else s.applyKind i

/-! ### Impulse timers (R140 to R143) -/

/-- The mark at which the current of an impulse is sensed (R142). -/
def Impulse.senseMark (c : Impulse) : Nat := c.startMark + c.width / 2

/-- The mark at which an impulse completes (R140). -/
def Impulse.endMark (c : Impulse) : Nat := c.startMark + c.width

/-- An impulse is cut by an OPEN or SHORT sense (R142). -/
def State.cut (s : State) (i : Fin 4) (c : Impulse) (sense : Sense) : State :=
  let position := ((s.line i).dial.position).getD 0
  (s.beginCause (.line i) .lineFault (.lineFault sense c.polarity c.form position)).restAfter i
    (.fault (s.elapsed + Config.faultRetry))

/-- The current of an impulse is sensed when it is due, once (R142). -/
def State.sense (s : State) (i : Fin 4) (sense : Sense) : State :=
  match (s.line i).state with
  | .impulse c =>
    if !c.sensed && decide (c.senseMark ≤ s.elapsed) then
      let s' := s.onLine i fun l => { l with lastSense := some sense }
      match sense with
      | .normal => s'.onLine i fun l => { l with state := .impulse { c with sensed := true } }
      | .opened => s'.cut i c .opened
      | .short => s'.cut i c .short
    else s
  | _ => s

/-- An impulse sensed NORMAL runs to its completion (R140). -/
def State.complete (s : State) (i : Fin 4) : State :=
  match (s.line i).state with
  | .impulse c =>
    if c.sensed && decide (c.endMark ≤ s.elapsed) then
      ((s.onLine i fun l => l.completed c).endCause (.line i) .lineFault).restAfter i (.gap s.elapsed)
    else s
  | _ => s

/-- The gap has run for the gap setting (R141). -/
def State.gapDue (s : State) (i : Fin 4) : Bool :=
  match (s.line i).state with
  | .gap completion => decide ((completion : Int) + s.settings.gap.get i ≤ (s.elapsed : Int))
  | _ => false

/-- The gap ends and the line evaluates (R141). -/
def State.gapEnds (s : State) (i : Fin 4) : State := if s.gapDue i then s.evaluate i else s

/-- The retry timer of a fault expires when it is due (R143): an impulse is started, or the timer is set on from
its expiry. -/
def State.retry (s : State) (i : Fin 4) : State :=
  match (s.line i).state with
  | .fault mark =>
    if mark ≤ s.elapsed then
      match s.decision i with
      | .impulse c => s.onLine i fun l => { l with state := .impulse c }
      | _ => s.onLine i fun l => { l with state := .fault (mark + Config.faultRetry) }
    else s
  | _ => s

/-! ### Outputs and views (R140, R149) -/

/-- What a line's driver pair applies: none at rest (R140, Table 7-3). -/
def LineState.drive : LineState → Option Polarity
  | .impulse c => some c.polarity
  | .off | .unset | .idle | .wait _ | .gap _ | .fault _ => none

/-- The drive outputs CLnA and CLnB: POSITIVE drives A against B, NEGATIVE B against A (R140). -/
def State.driveOutput (s : State) (i : Fin 4) : Option Polarity := (s.line i).state.drive

/-- The milliseconds left on a line's timer, in IMPULSE, GAP or FAULT (R149). -/
def State.timerLeft (s : State) (i : Fin 4) : Option Nat :=
  match (s.line i).state with
  | .impulse c => some (c.endMark - s.elapsed)
  | .gap completion => some (completion + (s.settings.gap.get i).toNat - s.elapsed)
  | .fault mark => some (mark - s.elapsed)
  | .off | .unset | .idle | .wait _ => none

/-- Target, behind and ahead of a line; absent while the position is UNSET (R137, R149). -/
def State.distances (s : State) (i : Fin 4) : Option (Nat × Nat × Nat) :=
  let l := s.line i
  let target := l.kind.target s.civilMs
  l.dial.position.map fun position => (target, l.kind.distance position target, l.kind.distance target position)

end Sys2Proof.Machine
end

