-- ==== Sys2Proof/Machine/LinkOps.lean ====
section
/-! DEFINITION. The Link Receiver's shared operations: faults and the capture, gap markers, the arrival queue,
link states, and the checking, dating and handling of a telegram (chapter 2). -/

namespace Sys2Proof.Machine

/-! ### Faults (R36 to R38) -/

/-- A fault meets the capture: stored and locked when it is unlocked, else the further-faults flag (R37). -/
def Link.capturing (l : Link) (r : FaultRecord) : Link :=
  match l.capture with
  | none => { l with capture := some r }
  | some _ => { l with further := true }

/-- A fault of a link: the capture, and LINK_ERROR when the capture was unlocked (R37, R41). -/
def State.linkFault (s : State) (i : Fin 4) (r : FaultRecord) : State :=
  let s' := s.onLink i fun l => l.capturing r
  if (s.link i).capture.isNone then s'.raiseMomentary (.link i) .linkError (.linkError r.reason) else s'

/-- The kind byte of the bytes received after the start byte, when they reach it (R36). -/
def partialKind (bytes : List Byte) : Option Byte := bytes[1]?

/-- The object number of the bytes received after the start byte, when they reach it (R36). -/
def partialObject (bytes : List Byte) : Option Nat :=
  if 5 ≤ bytes.length then some (field bytes 3 2) else none

/-- A fault the receiver finds, dated now, uncompensated (R36). -/
def State.receiverFault (s : State) (i : Fin 4) (reason : FaultReason) (kind : Option Byte)
    (object : Option Nat) : State :=
  s.linkFault i ⟨reason, s.nowQ, kind, object, i⟩

/-! ### Queue and markers (R31 to R33) -/

/-- A marker is placed at the tail when a place is free, else it becomes pending (R33, R35). -/
def Link.placeMarker (l : Link) (m : GapMarker) : Link :=
  if l.queue.length < Config.queuePlaces then { l with queue := l.queue ++ [.marker m] }
  else { l with pendingMarker := some m }

/-- The head entry leaves the queue, and a pending marker takes the place that frees at the tail (R31). -/
def Link.popped (l : Link) : Link :=
  match l.pendingMarker with
  | none => { l with queue := l.queue.tail }
  | some m => { l with queue := l.queue.tail ++ [.marker m], pendingMarker := none }

/-- The quality named by a free value. -/
def freeQuality (n : Nat) : Quality :=
  match n % 3 with
  | 0 => .locked
  | 1 => .holdover
  | _ => .unsync

/-- The gap start of a marker: what the rule names, else (in states no run reaches) a free value (log 19). -/
def gapStartOf (known : Option StationQ) (fresh : Nat) : StationQ :=
  known.getD ⟨Config.freeGapMs fresh, freeQuality (Config.freeGapQuality fresh)⟩

/-- The link enters GAP: the silence timer stops, and the start of the gap is reported unless the gap
continues (R32, R33, R41). -/
def State.enterGap (s : State) (i : Fin 4) (cause : GapCause) (start : StationQ) : State :=
  (s.onLink i fun l => { l with state := .gap, silenceStart := none }).beginCause (.link i) .linkGap
    (.linkGap cause start)

/-- The silence limit in force has passed on a running silence timer (R33). -/
def State.silenceDue (s : State) (i : Fin 4) : Bool :=
  match (s.link i).state, (s.link i).silenceStart with
  | .up, some start => decide ((start : Int) + s.settings.silenceLimit.get i * 1000 ≤ (s.elapsed : Int))
  | _, _ => false

/-- The silence timer expires when it is due (R33). -/
def State.silence (s : State) (i : Fin 4) : State :=
  if s.silenceDue i then
    let start := gapStartOf (s.link i).lastValid s.freeCount
    (s.enterGap i .silence start).onLink i fun l => l.placeMarker ⟨start, .silence, i⟩
  else s

/-- A link that is not UP enters UP, and a gap ends (R29, R30, R41); in UP the silence timer starts again. -/
def State.linkUp (s : State) (i : Fin 4) : State :=
  let s' := s.onLink i fun l => { l with state := .up, silenceStart := some s.elapsed }
  s'.endCause (.link i) .linkGap

/-! ### Checking a telegram (R27) -/

/-- The kinds of telegram (Table 2-2). -/
inductive TelegramKind
  | pointCmd | pointInd | signalCmd | signalInd | berthStep | berthCancel | heartbeat
  deriving DecidableEq, Repr

/-- The kind a kind byte names (11.4). -/
def TelegramKind.ofByte (b : Byte) : Option TelegramKind :=
  match b.toNat with
  | 0x11 => some .pointCmd
  | 0x12 => some .pointInd
  | 0x21 => some .signalCmd
  | 0x22 => some .signalInd
  | 0x31 => some .berthStep
  | 0x32 => some .berthCancel
  | 0x0F => some .heartbeat
  | _ => none

/-- The content bytes of a kind (Table 2-2). -/
def TelegramKind.contentBytes : TelegramKind → Nat
  | .pointCmd | .pointInd | .signalCmd | .signalInd => 1
  | .berthStep => 6
  | .berthCancel | .heartbeat => 0

/-- Each content code the telegram holds is one that Table 2-2 lists for its kind; content bytes that the
length leaves out are not examined (R27 check 2). -/
def contentOk (k : TelegramKind) (content : List Byte) : Bool :=
  match k with
  | .pointCmd => content.all fun b => (Pos.ofCode b.toNat).isSome
  | .pointInd => content.all fun b => (Detected.ofCode b.toNat).isSome
  | .signalCmd => content.all fun b => (Requested.ofCode b.toNat).isSome
  | .signalInd => content.all fun b => (Aspect.ofCode b.toNat).isSome
  | .berthStep => (content.drop 2).all headcodeChar
  | .berthCancel => true
  | .heartbeat => true

/-- What a valid telegram carries of its kind; none for a HEARTBEAT. -/
def contentOf (k : TelegramKind) (content : List Byte) : Option Content :=
  match k with
  | .pointCmd => (Pos.ofCode (byteAt content 0).toNat).map .pointCmd
  | .pointInd => (Detected.ofCode (byteAt content 0).toNat).map .pointInd
  | .signalCmd => (Requested.ofCode (byteAt content 0).toNat).map .signalCmd
  | .signalInd => (Aspect.ofCode (byteAt content 0).toNat).map .signalInd
  | .berthStep => some (.berthStep (field content 0 2) (Headcode.ofBytes content 2))
  | .berthCancel => some .berthCancel
  | .heartbeat => none

/-- A telegram that passes the three checks. -/
structure Telegram where
  /-- None for a HEARTBEAT. -/
  content : Option Content
  kindByte : Byte
  refresh : Bool
  object : Nat
  age : Nat
  deriving DecidableEq, Repr

/-- The three checks in order, over the bytes after the start byte: length byte, the counted bytes, two check
bytes (R27). -/
def checkTelegram (bytes : List Byte) : Except FaultReason Telegram :=
  let covered := bytes.take (bytes.length - 2)
  let check := bytes.drop (bytes.length - 2)
  let counted := covered.drop 1
  let flags := byteAt counted 1
  let aged := flags.getLsbD 1
  if (crc16 covered).toNat ≠ beNat check then .error .crc
  else
    match TelegramKind.ofByte (byteAt counted 0) with
    | none => .error .unknownKind
    | some k =>
      let content := (counted.drop 4).take k.contentBytes
      if !contentOk k content then .error .unknownKind
      else if (byteAt bytes 0).toNat ≠ 4 + k.contentBytes + (if aged then 2 else 0) then .error .length
      else .ok
        { content := contentOf k content
          kindByte := byteAt counted 0
          refresh := flags.getLsbD 0
          object := field counted 2 2
          age := if aged then field counted (4 + k.contentBytes) 2 else 0 }

/-! ### Dating and handling a valid telegram (R28 to R32) -/

/-- The compensation sum: the link latency plus the source age (R28). -/
def State.compensation (s : State) (i : Fin 4) (age : Nat) : Nat :=
  (s.settings.linkLatency.get i).toNat + age

/-- The queue entry of a valid telegram, with its compensated date and mark clamped at 0 (R28, 2.4). -/
def State.entryOf (s : State) (i : Fin 4) (t : Telegram) (c : Content) : TelegramEntry where
  content := c
  refresh := t.refresh
  object := t.object
  ms := s.stationMs - s.compensation i t.age
  mark := s.elapsed - s.compensation i t.age
  quality := s.quality
  link := i

/-- A valid HEARTBEAT (R29). -/
def State.heartbeat (s : State) (i : Fin 4) : State :=
  if (s.link i).pendingMarker.isSome then s else s.linkUp i

/-- An overflow (R32): the telegram is dropped as QUEUE_FULL, an OVERFLOW marker becomes pending and the link
enters GAP. `before` is the last valid telegram received before the dropped one. -/
def State.overflow (s : State) (i : Fin 4) (before : Option StationQ) (t : Telegram) : State :=
  let start := gapStartOf ((s.link i).lastAccepted <|> before) s.freeCount
  let s' := (s.enterGap i .overflow start).onLink i fun l => { l with pendingMarker := some ⟨start, .overflow, i⟩ }
  s'.receiverFault i .queueFull (some t.kindByte) (some t.object)

/-- A telegram entry is placed at the tail and is accepted (R30). -/
def State.accept (s : State) (i : Fin 4) (e : TelegramEntry) : State :=
  (s.onLink i fun l =>
    { l with queue := l.queue ++ [.telegram e], lastAccepted := some ⟨e.ms, e.quality⟩ }).linkUp i

/-- A valid telegram of another kind meets the queue and the pending marker (R30). -/
def State.enqueue (s : State) (i : Fin 4) (before : Option StationQ) (t : Telegram) (c : Content) : State :=
  let l := s.link i
  if l.pendingMarker.isSome then s.receiverFault i .queueFull (some t.kindByte) (some t.object)
  else if l.queue.length < Config.queuePlaces then s.accept i (s.entryOf i t c)
  else s.overflow i before t

/-- A valid telegram: it becomes the last valid telegram and is handled by its kind (R28 to R30). -/
def State.validTelegram (s : State) (i : Fin 4) (t : Telegram) : State :=
  let before := (s.link i).lastValid
  let s' := s.onLink i fun l =>
    { l with lastValid := some ⟨s.stationMs - s.compensation i t.age, s.quality⟩ }
  match t.content with
  | none => s'.heartbeat i
  | some c => s'.enqueue i before t c

/-- The second check byte has arrived: the receiver returns to HUNTING, and the telegram is checked (R27). -/
def State.telegramDone (s : State) (i : Fin 4) (bytes : List Byte) : State :=
  let s' := s.onLink i fun l => { l with framing := .hunting }
  match checkTelegram bytes with
  | .error reason => s'.receiverFault i reason (partialKind bytes) (partialObject bytes)
  | .ok t => s'.validTelegram i t

/-! ### Characters (R25, R26) -/

/-- A complete character on a link, by the framing state (R26). -/
def State.character (s : State) (i : Fin 4) (b : Byte) : State :=
  match (s.link i).framing with
  | .hunting =>
    if b = 0x7E then s.onLink i fun l => { l with framing := .receiving [] s.elapsed } else s
  | .receiving [] _ =>
    if 4 ≤ b.toNat ∧ b.toNat ≤ 12 then s.onLink i fun l => { l with framing := .receiving [b] s.elapsed }
    else (s.onLink i fun l => { l with framing := .hunting }).receiverFault i .length none none
  | .receiving (n :: rest) _ =>
    let bytes := n :: (rest ++ [b])
    if bytes.length < n.toNat + 3 then
      s.onLink i fun l => { l with framing := .receiving bytes s.elapsed }
    else s.telegramDone i bytes

/-- The partial telegram is abandoned with the fault FRAMING (R25, R26). -/
def State.abandonTelegram (s : State) (i : Fin 4) (bytes : List Byte) : State :=
  (s.onLink i fun l => { l with framing := .hunting }).receiverFault i .framing (partialKind bytes)
    (partialObject bytes)

/-- A character with a missing stop bit (R25). -/
def State.badCharacter (s : State) (i : Fin 4) : State :=
  match (s.link i).framing with
  | .hunting => s
  | .receiving bytes _ => s.abandonTelegram i bytes

/-- More than 20 ms have passed since the last character of a partial telegram (R26). -/
def State.interByteDue (s : State) (i : Fin 4) : Bool :=
  match (s.link i).framing with
  | .hunting => false
  | .receiving _ mark => decide (mark + Config.interByteLimit < s.elapsed)

/-- The inter-byte timer expires when it is due (R26). -/
def State.interByteTimeout (s : State) (i : Fin 4) : State :=
  match (s.link i).framing with
  | .hunting => s
  | .receiving bytes _ => if s.interByteDue i then s.abandonTelegram i bytes else s

/-- An event of a link's input, taken while the link is enabled and RESTART_N is not held (R25, R42). -/
def State.whenReceiving (s : State) (i : Fin 4) (f : State → State) : State :=
  s.whenRunning fun s => if s.settings.linkEnable.get i then f s else s

/-! ### Enabling and disabling (R35) -/

/-- A link is disabled (R35). -/
def State.disableLink (s : State) (i : Fin 4) : State :=
  let l := s.link i
  let s' := s.onLink i fun l => { l with framing := .hunting, silenceStart := none, state := .quiet }
  match l.state with
  | .up => s'.onLink i fun x => x.placeMarker ⟨gapStartOf l.lastValid s.freeCount, .disabled, i⟩
  | .gap => s'.endCause (.link i) .linkGap
  | .quiet => s'

/-- A link is enabled: HUNTING, and QUIET until the first accepted telegram (R35). -/
def State.enableLink (s : State) (i : Fin 4) : State :=
  s.onLink i fun l => { l with framing := .hunting, state := .quiet, silenceStart := none }

end Sys2Proof.Machine
end

