-- ==== Sys2Proof/Machine/Links.lean ====
section
/-! DEFINITION. The commands of the Link Receivers: characters, timers, and the link requests (chapter 2). -/

namespace Sys2Proof.Machine

/-- LINK_CHARACTER_RECEIVED: a complete character arrives (R26; log 11). -/
def execLinkCharacterReceived (i : Fin 4) (b : Byte) (s : State) : Host.Outcome State Fault Refusal :=
  (s.whenReceiving i fun s => s.character i b).answer

/-- LENGTH_BYTE_REJECTED: a character arrives as the length byte, outside 4 to 12 (R26; log 11). -/
def execLengthByteRejected (i : Fin 4) (b : Byte) (s : State) : Host.Outcome State Fault Refusal :=
  (s.whenReceiving i fun s => s.character i b).answer

/-- TELEGRAM_RECEIVED: a character arrives as the last check byte (R27; log 11). -/
def execTelegramReceived (i : Fin 4) (b : Byte) (s : State) : Host.Outcome State Fault Refusal :=
  (s.whenReceiving i fun s => s.character i b).answer

/-- LINK_BAD_CHARACTER (R25). -/
def execLinkBadCharacter (i : Fin 4) (s : State) : Host.Outcome State Fault Refusal :=
  (s.whenReceiving i fun s => s.badCharacter i).answer

/-- LINK_INTER_BYTE_TIMEOUT (R26). -/
def execLinkInterByteTimeout (i : Fin 4) (s : State) : Host.Outcome State Fault Refusal :=
  (s.whenReceiving i fun s => s.interByteTimeout i).answer

/-- SILENCE_EXPIRY (R33). -/
def execSilenceExpiry (i : Fin 4) (s : State) : Host.Outcome State Fault Refusal :=
  (s.whenRunning fun s => s.silence i).answer

/-- The link a request names, 0 to 3 (R39, R40). -/
def linkOf (body : List Byte) : Option (Fin 4) :=
  let n := (byteAt body 0).toNat
  if h : n < 4 then some ⟨n, h⟩ else none

/-- UNLOCK CAPTURE at the receiver (R39). -/
def serveUnlockCapture (body : List Byte) (s : State) : Reply :=
  match linkOf body with
  | none => .same s .outOfRange .none
  | some i => ⟨s.onLink i fun l => { l with capture := none, further := false }, .ok, .none⟩

/-- UNLOCK_CAPTURE (R39). -/
def execUnlockCapture (f : ReqFrame) (s : State) : Host.Outcome State Fault Refusal :=
  (s.request .unlockCapture f (serveUnlockCapture f.body)).answer

/-- A link as READ LINK gives it (R40). -/
def State.linkView (s : State) (i : Fin 4) : LinkView where
  enabled := s.settings.linkEnable.get i
  state := (s.link i).state
  fill := (s.link i).queue.length
  pendingMarker := (s.link i).pendingMarker
  lastValid := (s.link i).lastValid
  lastAccepted := (s.link i).lastAccepted
  capture := (s.link i).capture
  further := (s.link i).further

/-- READ LINK at the receiver (R40). -/
def serveReadLink (body : List Byte) (s : State) : Reply :=
  match linkOf body with
  | none => .same s .outOfRange .none
  | some i => .same s .ok (.link (s.linkView i))

/-- READ_LINK (R40). -/
def execReadLink (f : ReqFrame) (s : State) : Host.Outcome State Fault Refusal :=
  (s.request .readLink f (serveReadLink f.body)).answer

end Sys2Proof.Machine
end

