-- ==== Sys2Proof/Machine/Lines.lean ====
section
/-! DEFINITION. The commands of the Slave Clock Driver (chapter 7). -/

namespace Sys2Proof.Machine

/-- The first announcement sent is taken, and each line in IDLE or WAIT evaluates (R145). -/
def State.scTakes (s : State) : State :=
  match s.sc.announcements with
  | _ :: rest => { s with sc := { s.sc with announcements := rest } }.evaluateAll
  | [] => s

/-- SC_TAKES_TIME_ANNOUNCEMENT (R145; log 2). -/
def execScTakesTimeAnnouncement (s : State) : Host.Outcome State Fault Refusal :=
  (s.whenRunning State.scTakes).answer

/-- DIAL_TARGET_CHANGE: each line in IDLE or WAIT evaluates (R139; log 23). -/
def execDialTargetChange (s : State) : Host.Outcome State Fault Refusal :=
  (s.whenRunning State.evaluateAll).answer

/-- IMPULSE_SENSE (R142; log 2). -/
def execImpulseSense (i : Fin 4) (sense : Sense) (s : State) : Host.Outcome State Fault Refusal :=
  (s.whenRunning fun s => s.sense i sense).answer

/-- IMPULSE_COMPLETION (R140; log 2). -/
def execImpulseCompletion (i : Fin 4) (s : State) : Host.Outcome State Fault Refusal :=
  (s.whenRunning fun s => s.complete i).answer

/-- GAP_END (R141; log 2). -/
def execGapEnd (i : Fin 4) (s : State) : Host.Outcome State Fault Refusal :=
  (s.whenRunning fun s => s.gapEnds i).answer

/-- FAULT_RETRY_EXPIRY (R143; log 2). -/
def execFaultRetryExpiry (i : Fin 4) (s : State) : Host.Outcome State Fault Refusal :=
  (s.whenRunning fun s => s.retry i).answer

/-! ### DIAL SET (R144) -/

/-- The polarity a DIAL SET gives: 0 is none given (11.2). -/
def polarityOf : Nat → Option (Option Polarity)
  | 0 => some none
  | 1 => some (some .positive)
  | 2 => some (some .negative)
  | _ => none

/-- What follows an accepted DIAL SET, by the line's state (R144). -/
def State.afterDialSet (s : State) (i : Fin 4) : State :=
  match (s.line i).state with
  | .unset => (s.endCause (.line i) .dialUnset).evaluate i
  | .idle => s.evaluate i
  | .wait _ => s.evaluate i
  | .off | .impulse _ | .gap _ | .fault _ => s

/-- DIAL SET at a line whose range check has passed (R144, checks 2 and 3). -/
def State.dialSet (s : State) (i : Fin 4) (position : Nat) (given : Option Polarity) : Reply :=
  let l := s.line i
  if l.state.driving then .same s .lineBusy .none
  else
    let known := if l.dial.isSet then given <|> l.dial.last else given
    match known with
    | none => .same s .outOfRange .none
    | some polarity =>
      ⟨(s.onLine i fun l => { l with dial := .at position polarity, resolving := false }).afterDialSet i, .ok, .none⟩

/-- DIAL SET at the Slave Clock Driver (R144; log 16). -/
def serveDialSet (body : List Byte) (s : State) : Reply :=
  match linkOf body, polarityOf (byteAt body 3).toNat with
  | some i, some given =>
    if field body 1 2 < (s.line i).kind.positions then s.dialSet i (field body 1 2) given
    else .same s .outOfRange .none
  | _, _ => .same s .outOfRange .none

/-- DIAL_SET (R144). -/
def execDialSet (f : ReqFrame) (s : State) : Host.Outcome State Fault Refusal :=
  (s.request .dialSet f (serveDialSet f.body)).answer

/-! ### READ LINE (R149) -/

/-- A line as READ LINE gives it (R149). -/
def State.lineView (s : State) (i : Fin 4) : LineView where
  enabled := (s.line i).enabled
  kind := (s.line i).kind
  width := s.settings.impulseWidth.get i
  gap := s.settings.gap.get i
  holdWindow := s.settings.holdWindow.get i
  state := (s.line i).state
  dial := (s.line i).dial
  resolving := (s.line i).resolving
  lastSense := (s.line i).lastSense
  timerLeft := s.timerLeft i
  disablingDeferred := (s.line i).state.driving && !s.settings.lineEnable.get i
  kindDeferred := (s.line i).state.driving && decide (s.settings.dialKind.get i ≠ (s.line i).kind)
  civilMs := s.civilMs
  target := s.distances i

/-- READ LINE at the Slave Clock Driver (R149). -/
def serveReadLine (body : List Byte) (s : State) : Reply :=
  match linkOf body with
  | none => .same s .outOfRange .none
  | some i => .same s .ok (.line (s.lineView i))

/-- READ_LINE (R149). -/
def execReadLine (f : ReqFrame) (s : State) : Host.Outcome State Fault Refusal :=
  (s.request .readLine f (serveReadLine f.body)).answer

end Sys2Proof.Machine
end

