-- ==== Sys2Proof/Machine/ObjectOps.lean ====
section
/-! DEFINITION. The Object Table's shared operations and the application of telegram entries: checks, dates,
points, signals, berths, durations and limit timers (chapters 3 and 4). -/

namespace Sys2Proof.Machine

/-! ### Views of a record -/

/-- The kind of a record (Table 3-1). -/
def KindRec.kindOf : KindRec → ObjectKind
  | .point _ => .point
  | .signal _ => .signal
  | .berth _ => .berth

/-- The state of record (R44). -/
def KindRec.stateOfRecord : KindRec → StateOfRecord
  | .point p => .position p.detected
  | .signal g => .aspect g.aspect
  | .berth b => .occupancy b.occupancy

/-- The record's state of record is UNKNOWN (R44, R56). -/
def KindRec.isUnknown : KindRec → Bool
  | .point p => decide (p.detected = .unknown)
  | .signal g => decide (g.aspect = .unknown)
  | .berth b => decide (b.occupancy = .unknown)

/-- A new POINT's fields (R45). -/
def PointRec.fresh (limit : Nat) : PointRec := ⟨.unknown, none, limit, none, none, 0⟩

/-- A new SIGNAL's fields (R45). -/
def SignalRec.fresh (limit : Nat) : SignalRec := ⟨.unknown, .unknown, limit, none, none⟩

/-- A new BERTH's fields (R45). -/
def BerthRec.fresh (timing : Bool) : BerthRec := ⟨.unknown, timing, []⟩

/-! ### Dates (R54, R56) -/

/-- The date's station time, raised to the record's state-since date (R54). -/
def ObjectRec.raisedMs (r : ObjectRec) (e : TelegramEntry) : Nat := max e.ms r.since.ms

/-- The earliest possible date of a change learned after a gap (R56). -/
def ObjectRec.earliest (r : ObjectRec) (e : TelegramEntry) : Nat :=
  let known := match r.stale with
    | some t => max r.since.ms t.ms
    | none => r.since.ms
  min known (r.raisedMs e)

/-- The date kind of a change of the state of record (R56, R57). -/
def ObjectRec.changeKind (r : ObjectRec) (e : TelegramEntry) : DateKind :=
  if r.kind.isUnknown || e.refresh then .afterGap (r.earliest e) else .observed

/-- The date of a change of the state of record (R54, R56). -/
def ObjectRec.changeDate (r : ObjectRec) (e : TelegramEntry) : Date :=
  ⟨r.raisedMs e, e.quality, r.changeKind e⟩

/-- The start date of a movement or a clearing (R63, R70). -/
def ObjectRec.commandDate (r : ObjectRec) (e : TelegramEntry) : Date := ⟨r.raisedMs e, e.quality, .observed⟩

/-! ### Durations (R81, R82) -/

/-- The duration code of `d` ms (R82). -/
def encodeDuration (d : Nat) (valid : Bool) : DurationCode :=
  if d < 1024 then ⟨0, d, valid⟩
  else if d < 131072 then
    let e := d.log2 - 9
    ⟨e, d / 2 ^ e, valid⟩
  else ⟨7, 1023, valid⟩

/-- The value a duration code decodes to (R82). -/
def DurationCode.decoded (c : DurationCode) : Nat := c.mantissa * 2 ^ c.exponent

/-- The valid flag of a completed duration (R81). -/
def durationValid (r : ObjectRec) (e : TelegramEntry) (changed : Bool) : Bool :=
  !e.refresh && !r.kind.isUnknown && (r.stale.isNone || changed)

/-- The code of a completed movement or clearing: the indication's mark minus the start mark, clamped at 0
(R81, R82). -/
def durationOf (r : ObjectRec) (e : TelegramEntry) (changed : Bool) (startMark : Nat) : DurationCode :=
  encodeDuration (e.mark - startMark) (durationValid r e changed)

/-! ### Writing a record -/

/-- The kind's fields replaced; nothing of the watched summary but what they hold is changed. -/
def State.setKind (s : State) (n : Nat) (k : KindRec) : State := s.onObject n fun r => { r with kind := k }

/-- A change of the state of record, dated and reported (R44, R58). -/
def State.changeRecord (s : State) (n : Nat) (date : Date) (k : KindRec) : State :=
  (s.onObject n fun r => { r with since := date, kind := k }).report (.object n)

/-- The kind's fields after an indication: a dated change when the state of record changed (R56). -/
def State.indicated (s : State) (n : Nat) (changed : Bool) (date : Date) (k : KindRec) : State :=
  if changed then s.changeRecord n date k else s.setKind n k

/-- An indication clears the stale flag of the record it reports (R55). -/
def State.clearStale (s : State) (n : Nat) (r : ObjectRec) : State :=
  if r.stale.isSome then (s.onObject n fun r => { r with stale := none }).report (.object n) else s

/-! ### Limit timers (R62, R69, R75) -/

/-- A movement's limit timer stands at or beyond its expiry point (R62). -/
def PointRec.throwDue (p : PointRec) (elapsed : Nat) : Bool :=
  match p.movement with
  | some m => m.running && decide (m.startMark + p.throwLimit ≤ elapsed)
  | none => false

/-- A clearing's limit timer stands at or beyond its expiry point (R62). -/
def SignalRec.clearDue (g : SignalRec) (elapsed : Nat) : Bool :=
  match g.clearing with
  | some c => c.running && decide (c.requestMark + g.clearLimit ≤ elapsed)
  | none => false

/-- The expiry of a movement's limit timer when it is due: the timer stops and POINT_OVERDUE begins (R62, R69). -/
def State.throwExpiry (s : State) (n : Nat) : State :=
  match (s.object n).map ObjectRec.kind with
  | some (.point p) =>
    match p.movement with
    | some m =>
      if p.throwDue s.elapsed then
        (s.setKind n (.point { p with movement := some { m with running := false } })).beginCause (.object n)
          .pointOverdue (.pointOverdue m.toward m.start m.reversed)
      else s
    | none => s
  | _ => s

/-- The expiry of a clearing's limit timer when it is due: the timer stops and SIGNAL_SLOW_CLEAR begins
(R62, R75). -/
def State.clearExpiry (s : State) (n : Nat) : State :=
  match (s.object n).map ObjectRec.kind with
  | some (.signal g) =>
    match g.clearing with
    | some c =>
      if g.clearDue s.elapsed then
        (s.setKind n (.signal { g with clearing := some { c with running := false } })).beginCause (.object n)
          .signalSlowClear (.signalSlowClear c.request)
      else s
    | none => s
  | _ => s

/-! ### Points (R63 to R68) -/

/-- The detected position that is a commanded position. -/
def Pos.detected : Pos → Detected
  | .normal => .normal
  | .reverse => .reverse

/-- The commanded position a detected position shows, when it shows one. -/
def Detected.pos : Detected → Option Pos
  | .normal => some .normal
  | .reverse => some .reverse
  | .unknown => .none
  | .none => .none

/-- A POINT_CMD (R63, R64). -/
def State.pointCmd (s : State) (n : Nat) (r : ObjectRec) (p : PointRec) (q : Pos) (e : TelegramEntry) : State :=
  match p.movement with
  | none =>
    if p.detected = q.detected then s.setKind n (.point { p with commanded := some q })
    else
      (s.setKind n (.point { p with
        commanded := some q
        movement := some ⟨q, r.commandDate e, e.mark, false, true⟩ })).throwExpiry n
  | some m =>
    if m.toward = q then s
    else
      ((s.setKind n (.point { p with
        commanded := some q
        movement := some ⟨q, r.commandDate e, e.mark, true, true⟩ })).endCause (.object n)
          .pointOverdue).throwExpiry n

/-- A change to NORMAL or REVERSE with no movement in flight was not commanded (R68). -/
def PointRec.uncommanded (p : PointRec) (q : Pos) : Bool :=
  match p.commanded with
  | some c => decide (c ≠ q) && decide (p.detected ≠ .unknown)
  | none => decide (p.detected = .normal) || decide (p.detected = .reverse)

/-- A completed movement's record (R66). -/
def PointRec.completed (p : PointRec) (code : DurationCode) : PointRec :=
  { p with movement := none, lastDuration := some code, count := min 65535 (p.count + 1) }

/-- A POINT_IND (R65 to R68). -/
def State.pointInd (s : State) (n : Nat) (r : ObjectRec) (p : PointRec) (d : Detected) (e : TelegramEntry) :
    State :=
  let changed := decide (p.detected ≠ d)
  let date := r.changeDate e
  match d.pos with
  | none =>
    let s' := s.indicated n changed date (.point { p with detected := d })
    if p.movement.isSome then s'
    else s'.beginCause (.object n) .pointLostDetection (.pointLostDetection p.detected)
  | some q =>
    match p.movement with
    | some m =>
      if m.toward = q then
        let done := p.completed (durationOf r e changed m.startMark)
        ((s.indicated n changed date (.point { done with detected := d })).endCause (.object n)
          .pointOverdue).endCause (.object n) .pointLostDetection
      else
        ((s.indicated n changed date (.point { p with detected := d })).raiseMomentary (.object n)
          .pointWrongDetection (.pointWrongDetection m.toward d)).endCause (.object n) .pointLostDetection
    | none =>
      if changed then
        let s' := (s.changeRecord n date (.point { p with detected := d })).endCause (.object n)
          .pointLostDetection
        if p.uncommanded q then
          s'.raiseMomentary (.object n) .pointUncommanded (.pointUncommanded p.detected d p.commanded)
        else s'
      else s

/-! ### Signals (R70 to R74) -/

/-- A SIGNAL_CMD (R70, R71). -/
def State.signalCmd (s : State) (n : Nat) (r : ObjectRec) (g : SignalRec) (q : Requested) (e : TelegramEntry) :
    State :=
  match q with
  | .off =>
    if g.aspect = .stop ∧ g.clearing.isNone then
      (s.setKind n (.signal { g with
        requested := .off
        clearing := some ⟨r.commandDate e, e.mark, true⟩ })).clearExpiry n
    else s.setKind n (.signal { g with requested := .off })
  | .stop =>
    (s.setKind n (.signal { g with requested := .stop, clearing := none })).endCause (.object n)
      .signalSlowClear
  | .unknown => s

/-- The proceed aspects: the lit aspects other than STOP (4.3). -/
def Aspect.isProceed : Aspect → Bool
  | .restrict | .caution | .proceed => true
  | .unknown | .stop | .dark => false

/-- A SIGNAL_IND for a proceed aspect (R72). -/
def State.signalProceeds (s : State) (n : Nat) (r : ObjectRec) (g : SignalRec) (a : Aspect)
    (e : TelegramEntry) : State :=
  let changed := decide (g.aspect ≠ a)
  let date := r.changeDate e
  let s' :=
    match g.clearing with
    | some c =>
      (s.indicated n changed date (.signal { g with
        aspect := a
        clearing := none
        lastDuration := some (durationOf r e changed c.requestMark) })).endCause (.object n) .signalSlowClear
    | none => s.indicated n changed date (.signal { g with aspect := a })
  let s'' := s'.endCause (.object n) .signalLampFault
  if g.requested = .stop ∧ changed then
    s''.raiseMomentary (.object n) .signalUncommanded (.signalUncommanded g.aspect a)
  else s''

/-- A SIGNAL_IND (R72 to R74). -/
def State.signalInd (s : State) (n : Nat) (r : ObjectRec) (g : SignalRec) (a : Aspect) (e : TelegramEntry) :
    State :=
  if a.isProceed then s.signalProceeds n r g a e
  else
    let s' := s.indicated n (decide (g.aspect ≠ a)) (r.changeDate e) (.signal { g with aspect := a })
    match a with
    | .dark => s'.beginCause (.object n) .signalLampFault (.signalLampFault g.aspect)
    | _ => s'.endCause (.object n) .signalLampFault

/-! ### Berths (R76 to R80) -/

/-- A berth event is handed to the Timetable Checker (R79). -/
def State.hand (s : State) (ev : BerthEvent) : State := { s with berthEvents := s.berthEvents ++ [ev] }

/-- An active UNPLANNED_TRAIN cause ends when the headcode it names exits the berth (R80). -/
def State.endUnplanned (s : State) (n : Nat) (x : Headcode) : State :=
  match (s.condsOf (.object n)).find .unplannedTrain with
  | some c =>
    match c.detail with
    | .unplannedTrain h _ => if h = x then s.endCause (.object n) .unplannedTrain else s
    | _ => s
  | none => s

/-- A berth loses its headcode, or is first known to be empty (R76 for a from-berth, R78 for a cancel). -/
def State.vacate (s : State) (n : Nat) (r : ObjectRec) (b : BerthRec) (e : TelegramEntry) : State :=
  let date := r.changeDate e
  match b.occupancy with
  | .occupied x =>
    ((s.changeRecord n date (.berth { b with occupancy := .empty })).endUnplanned n x).hand
      ⟨n, x, .exit, date⟩
  | .empty => s
  | .unknown => s.changeRecord n date (.berth { b with occupancy := .empty })

/-- A headcode enters its to-berth (R77). -/
def State.occupy (s : State) (n : Nat) (r : ObjectRec) (b : BerthRec) (h : Headcode) (e : TelegramEntry) :
    State :=
  let date := r.changeDate e
  let s' := s.changeRecord n date (.berth { b with occupancy := .occupied h })
  match b.occupancy with
  | .occupied x =>
    if x = h then s
    else ((s'.endUnplanned n x).hand ⟨n, x, .exit, date⟩).hand ⟨n, h, .entry b.timing, date⟩
  | .empty => s'.hand ⟨n, h, .entry b.timing, date⟩
  | .unknown => s'.hand ⟨n, h, .entry b.timing, date⟩

/-- The answer to an entry at a berth is owed no longer; other events stand as they are. -/
def BerthEvent.unowed (n : Nat) (ev : BerthEvent) : BerthEvent :=
  match ev.direction with
  | .entry _ => if ev.berth = n then { ev with direction := .entry false } else ev
  | .exit => ev

/-- The berth record of a number ends, by a retirement or a change of kind: the answers to its entries are dropped,
those given and those still owed, so that none reaches a later record of the number (R80; log 36). -/
def State.dropAnswers (s : State) (n : Nat) : State :=
  { s with
    answers := s.answers.filter fun a => a.berth ≠ n
    berthEvents := s.berthEvents.map (BerthEvent.unowed n) }

/-! ### The checks of an entry and its application (R52, R61) -/

/-- The kind of record a telegram needs (R52). -/
def Content.needs : Content → ObjectKind
  | .pointCmd _ => .point
  | .pointInd _ => .point
  | .signalCmd _ => .signal
  | .signalInd _ => .signal
  | .berthStep _ _ => .berth
  | .berthCancel => .berth

/-- The kind byte of a telegram's content (11.4). -/
def Content.kindByte : Content → Byte
  | .pointCmd _ => 0x11
  | .pointInd _ => 0x12
  | .signalCmd _ => 0x21
  | .signalInd _ => 0x22
  | .berthStep _ _ => 0x31
  | .berthCancel => 0x32

/-- The three checks of a named record (R52). -/
def State.checkRecord (s : State) (n : Nat) (kind : ObjectKind) (i : Fin 4) : Option FaultReason :=
  if n = 0 ∨ 4095 < n then some .unknownObject
  else
    match s.object n with
    | none => some .unknownObject
    | some r =>
      if r.kind.kindOf ≠ kind then some .kindMismatch
      else if r.link ≠ i then some .linkMismatch
      else none

/-- The from-berth of an entry that is checked and indicated: not for a REFRESH, not 0 (R52, R55, R57). -/
def TelegramEntry.source (e : TelegramEntry) : Option Nat :=
  match e.content with
  | .berthStep f _ => if e.refresh ∨ f = 0 then none else some f
  | _ => none

/-- The checks of an entry, the from-berth's last (R52). -/
def State.checkEntry (s : State) (e : TelegramEntry) : Option FaultReason :=
  match s.checkRecord e.object e.content.needs e.link with
  | some fault => some fault
  | none =>
    match e.source with
    | some f => s.checkRecord f .berth e.link
    | none => none

/-- A step's effect on its from-berth (R76): none for an interpose, a REFRESH, or a from-berth equal to the
to-berth. -/
def State.leaveSource (s : State) (e : TelegramEntry) : State :=
  match e.source with
  | some f =>
    if f = e.object then s
    else
      match s.object f with
      | some r =>
        match r.kind with
        | .berth b => (s.clearStale f r).vacate f r b e
        | _ => s
      | none => s
  | none => s

/-- An entry that passed its checks is applied to the records it names (R61). -/
def State.applyEntry (s : State) (e : TelegramEntry) : State :=
  let n := e.object
  match s.object n with
  | none => s
  | some r =>
    match e.content, r.kind with
    | .pointCmd q, .point p => s.pointCmd n r p q e
    | .pointInd d, .point p => (s.clearStale n r).pointInd n r p d e
    | .signalCmd q, .signal g => s.signalCmd n r g q e
    | .signalInd a, .signal g => (s.clearStale n r).signalInd n r g a e
    | .berthStep _ h, .berth b => ((s.leaveSource e).clearStale n r).occupy n r b h e
    | .berthCancel, .berth b => (s.clearStale n r).vacate n r b e
    | _, _ => s

/-- A discarded entry's fault, dated by the entry, goes to the capture of its link (R38, R52). -/
def State.entryFault (s : State) (e : TelegramEntry) (reason : FaultReason) : State :=
  s.linkFault e.link ⟨reason, ⟨e.ms, e.quality⟩, some e.content.kindByte, some e.object, e.link⟩

/-- An entry that has left its queue: checked, then applied or discarded whole (R52, R61). -/
def State.serveEntry (s : State) (e : TelegramEntry) : State :=
  match s.checkEntry e with
  | some reason => s.entryFault e reason
  | none => s.applyEntry e

/-! ### Gap markers (R53) -/

/-- A record marked stale: one already stale keeps its earlier stale-since (R53). -/
def ObjectRec.markStale (i : Fin 4) (start : StationQ) (r : ObjectRec) : ObjectRec :=
  if r.link = i ∧ r.stale.isNone then { r with stale := some start } else r

/-- A slot that watches a record which becomes stale is marked changed (R53, R58). -/
def WatchSlot.stales (objects : Store ObjectRec) (i : Fin 4) (x : WatchSlot) : WatchSlot :=
  match x.subject with
  | .object n =>
    match objects.get n with
    | some r => if r.link = i ∧ r.stale.isNone then { x with changed := true } else x
    | none => x
  | .none => x
  | .path _ => x

/-- Every record of the marker's link is marked stale (R53). -/
def State.markStale (s : State) (i : Fin 4) (start : StationQ) : State :=
  { s with
    objects := s.objects.mapVals (ObjectRec.markStale i start)
    watch := s.watch.map (WatchSlot.stales s.objects i) }

/-! ### References (R47) -/

/-- A path in LOADED, ARMED or RUNNING (5.2). -/
def PathState.live : PathState → Bool
  | .loaded | .armed | .running => true
  | .complete | .cancelled | .lost => false

/-- A timing point names an object, as its berth or as its route-check point (R47). -/
def Plan.names (p : Plan) (n : Nat) : Bool :=
  decide (p.berth = n) ||
    match p.route with
    | some r => decide (r.point = n)
    | none => false

def PathRec.names (p : PathRec) (n : Nat) : Bool := p.points.any fun t => t.plan.names n

/-- The template of a REPEAT PATH in flight (R99). -/
def State.isTemplate (s : State) (path : Nat) : Bool :=
  match s.tc.repeatOp with
  | some op => decide (op.template = path)
  | none => false

/-- An in-flight part, or expectations waiting (R47). -/
def KindRec.inFlight : KindRec → Bool
  | .point p => p.movement.isSome
  | .signal g => g.clearing.isSome
  | .berth b => !b.queue.isEmpty

/-- An object is referenced (R47). -/
def State.referenced (s : State) (n : Nat) (r : ObjectRec) : Bool :=
  s.tc.paths.any (fun e => (e.2.state.live || s.isTemplate e.1) && e.2.names n) || r.kind.inFlight

/-! ### Object summaries (R51) -/

def CondSet.anyUnack (cs : CondSet) : Bool := List.any cs fun x => x.state.unack

/-- An object summary (R51, Table 11-6). -/
def ObjectRec.summary (r : ObjectRec) (n : Nat) : ObjectSummary where
  number := n
  kind := r.kind.kindOf
  link := r.link
  state := r.kind.stateOfRecord
  since := r.since
  stale := r.stale
  conditions := r.conds.length
  unacknowledged := r.conds.anyUnack

/-- The class and state of each condition present (R50, R103). -/
def CondSet.states (cs : CondSet) : List (Class × CondState) := List.map (fun x => (x.cls, x.state)) cs

end Sys2Proof.Machine
end

