-- ==== Sys2Proof/Machine/Movements.lean ====
section
/-! DEFINITION. The commands of the Movement Dater: queue entries, limit timers, and unmatched answers
(chapters 3 and 4). -/

namespace Sys2Proof.Machine

/-- The head entry of a queue, when it is a telegram, leaves the queue and is served (R31, R61). -/
def State.takeTelegram (s : State) (i : Fin 4) : State :=
  match (s.link i).queue with
  | .telegram e :: _ => (s.onLink i Link.popped).serveEntry e
  | .marker _ :: _ => s
  | [] => s

/-- TAKE_TELEGRAM_ENTRY (R61; log 2). -/
def execTakeTelegramEntry (i : Fin 4) (s : State) : Host.Outcome State Fault Refusal :=
  (s.whenRunning fun s => s.takeTelegram i).answer

/-- The head entry of a queue, when it is a gap marker, leaves the queue and marks its link's records stale
(R31, R53). -/
def State.takeMarker (s : State) (i : Fin 4) : State :=
  match (s.link i).queue with
  | .marker m :: _ => (s.onLink i Link.popped).markStale m.link m.start
  | .telegram _ :: _ => s
  | [] => s

/-- TAKE_GAP_MARKER (R53; log 2). -/
def execTakeGapMarker (i : Fin 4) (s : State) : Host.Outcome State Fault Refusal :=
  (s.whenRunning fun s => s.takeMarker i).answer

/-- THROW_LIMIT_EXPIRY (R62, R69; log 2). -/
def execThrowLimitExpiry (n : Nat) (s : State) : Host.Outcome State Fault Refusal :=
  (s.whenRunning fun s => s.throwExpiry n).answer

/-- CLEAR_LIMIT_EXPIRY (R62, R75; log 2). -/
def execClearLimitExpiry (n : Nat) (s : State) : Host.Outcome State Fault Refusal :=
  (s.whenRunning fun s => s.clearExpiry n).answer

/-- Whether a berth still holds a headcode from the entry of a given date (R80). Two dates are compared by their absolute
station time (0.5.2); that the quality, the kind and the earliest date of the record take no part is the model's reading
(log 37). -/
def ObjectRec.stillHolds (r : ObjectRec) (b : BerthRec) (h : Headcode) (date : Date) : Bool :=
  decide (b.occupancy = .occupied h) && decide (r.since.ms = date.ms)

/-- An unmatched answer at its berth. Where the headcode still stands from that entry the cause begins, unless it is active
already (R80, R154; log 37); where it has left, the cause goes through the row for the beginning and the row for the end,
whatever the condition was (R156). An answer owed to a record that has ended is dropped when it ends
(`State.dropAnswers`); what reaches this operation for a place that holds no berth is dropped here. -/
def State.unmatched (s : State) (a : Answer) : State :=
  match s.object a.berth with
  | none => s
  | some r =>
    match r.kind with
    | .berth b =>
      let subject := Subject.object a.berth
      let detail := Detail.unplannedTrain a.headcode a.date
      if r.stillHolds b a.headcode a.date then s.beginCause subject .unplannedTrain detail
      else (s.causeBegins subject .unplannedTrain detail).endCause subject .unplannedTrain
    | .point _ => s
    | .signal _ => s

/-- The first unmatched answer given is taken. R80 and R124 give no order for the answers of different berths: first
given, first taken is the model's choice (log 33). -/
def State.takeAnswer (s : State) : State :=
  match s.answers with
  | a :: rest => { s with answers := rest }.unmatched a
  | [] => s

/-- UNMATCHED_ANSWER (R80; log 2). -/
def execUnmatchedAnswer (s : State) : Host.Outcome State Fault Refusal :=
  (s.whenRunning State.takeAnswer).answer

end Sys2Proof.Machine
end

