-- ==== Sys2Proof/Machine/Objects.lean ====
section
/-! DEFINITION. The requests of the Object Table: define, amend, retire, read, find (chapter 3). -/

namespace Sys2Proof.Machine

/-- An object number is 1 to 4,095 (R43). -/
def objectNumber (n : Nat) : Bool := decide (1 ≤ n) && decide (n ≤ 4095)

/-- A new record's fields for a kind and an optional parameter, when the parameter lies within its range
(R45; Tables 3-2 to 3-4). -/
def newKind (kind : ObjectKind) (parameter : Option Nat) : Option KindRec :=
  match kind with
  | .point =>
    let limit := parameter.getD 6000
    if 500 ≤ limit ∧ limit ≤ 30000 then some (.point (.fresh limit)) else none
  | .signal =>
    let limit := parameter.getD 3000
    if 500 ≤ limit ∧ limit ≤ 10000 then some (.signal (.fresh limit)) else none
  | .berth =>
    match parameter.getD 0 with
    | 0 => some (.berth (.fresh false))
    | 1 => some (.berth (.fresh true))
    | _ => none

/-- A link number on the wire (R45). -/
def linkNumber (n : Nat) : Option (Fin 4) := if h : n < 4 then some ⟨n, h⟩ else none

/-! ### DEFINE OBJECT (R45) -/

/-- The parameter of DEFINE OBJECT, when its presence byte says it is given (Table 11-3). -/
def defineParameter (body : List Byte) : Option Nat :=
  if (byteAt body 4).toNat = 1 then some (field body 5 2) else none

/-- The fields of a DEFINE OBJECT body that lies within its ranges (R45, check 1). -/
def defineFields (body : List Byte) : Option (KindRec × Fin 4) :=
  if objectNumber (field body 0 2) then
    match ObjectKind.ofCode (byteAt body 2).toNat, linkNumber (byteAt body 3).toNat with
    | some kind, some link => (newKind kind (defineParameter body)).map fun k => (k, link)
    | _, _ => none
  else none

/-- A new record (R45). -/
def ObjectRec.new (link : Fin 4) (date : Date) (k : KindRec) : ObjectRec where
  link := link
  defined := date
  since := date
  stale := none
  conds := []
  kind := k

/-- DEFINE OBJECT at the Object Table (R45). -/
def editDefineObject (body : List Byte) (s : State) : Edit :=
  let n := field body 0 2
  match defineFields body with
  | none => .refuse .outOfRange n none
  | some (k, link) =>
    if (s.object n).isSome then .refuse .numberInUse n none
    else .accept (s.setObject n (.new link s.now k)) .ok (.date s.now)

/-- DEFINE_OBJECT (R45). -/
def execDefineObject (f : ReqFrame) (s : State) : Host.Outcome State Fault Refusal :=
  (s.request .defineObject f (change .defineObject f.tag (editDefineObject f.body))).answer

/-! ### AMEND OBJECT (R46, R47) -/

/-- What an AMEND OBJECT carries: each part only when its mask bit is set (Table 11-3). -/
structure Amendment where
  kind : Option ObjectKind
  link : Option (Fin 4)
  limit : Option Nat
  timing : Option Bool

/-- A part of an amendment: absent when its mask bit is clear; given, it must be a value of its kind. -/
def amendPart {α : Type} (given : Bool) (value : Option α) : Option (Option α) :=
  if given then value.map some else some none

/-- The timing attribute of a byte (11.2). -/
def timingOf : Nat → Option Bool
  | 0 => some false
  | 1 => some true
  | _ => none

/-- The fields of an AMEND OBJECT body that lies within the ranges of check 1 (R46). -/
def amendFields (body : List Byte) : Option Amendment :=
  let mask := byteAt body 2
  if objectNumber (field body 0 2) then
    match amendPart (mask.getLsbD 0) (ObjectKind.ofCode (byteAt body 3).toNat),
        amendPart (mask.getLsbD 1) (linkNumber (byteAt body 4).toNat),
        amendPart (mask.getLsbD 3) (timingOf (byteAt body 7).toNat) with
    | some kind, some link, some timing =>
      some ⟨kind, link, if mask.getLsbD 2 then some (field body 5 2) else none, timing⟩
    | _, _, _ => none
  else none

/-- The kind the record will have after the amendment (R46 check 3). -/
def Amendment.kindAfter (a : Amendment) (r : ObjectRec) : ObjectKind := a.kind.getD r.kind.kindOf

/-- The amendment changes the kind (R46). -/
def Amendment.changesKind (a : Amendment) (r : ObjectRec) : Bool := decide (a.kindAfter r ≠ r.kind.kindOf)

/-- The amendment changes the link (R46). -/
def Amendment.changesLink (a : Amendment) (r : ObjectRec) : Bool := decide (a.link.getD r.link ≠ r.link)

/-- The parameters given belong to the kind and lie within their range (R46 check 3). -/
def Amendment.parametersOk (a : Amendment) (r : ObjectRec) : Bool :=
  match a.kindAfter r with
  | .point => a.timing.isNone && (newKind .point a.limit).isSome
  | .signal => a.timing.isNone && (newKind .signal a.limit).isSome
  | .berth => a.limit.isNone

/-- The fields of the new kind, with the parameters given or their defaults (R47). -/
def Amendment.freshKind (a : Amendment) : ObjectKind → KindRec
  | .point => .point (.fresh (a.limit.getD 6000))
  | .signal => .signal (.fresh (a.limit.getD 3000))
  | .berth => .berth (.fresh (a.timing.getD false))

/-- The record's own kind with the parameters given (R46). -/
def Amendment.adjusted (a : Amendment) : KindRec → KindRec
  | .point p => .point { p with throwLimit := a.limit.getD p.throwLimit }
  | .signal g => .signal { g with clearLimit := a.limit.getD g.clearLimit }
  | .berth b => .berth { b with timing := a.timing.getD b.timing }

/-- An accepted kind change gives the record a new life under the same number (R47). -/
def ObjectRec.reborn (r : ObjectRec) (link : Fin 4) (date : Date) (k : KindRec) : ObjectRec where
  link := link
  defined := date
  since := if date.ms < r.since.ms then r.since else date
  stale := none
  conds := []
  kind := k

/-- The accepted changes, made together (R46, R47): a new limit already reached expires at once (R62; log 26). -/
def State.amendObject (s : State) (n : Nat) (r : ObjectRec) (a : Amendment) : State :=
  let link := a.link.getD r.link
  if a.changesKind r then
    ((s.setObject n (r.reborn link s.now (a.freshKind (a.kindAfter r)))).report (.object n)).dropAnswers n
  else
    let s' := s.setObject n { r with link := link, kind := a.adjusted r.kind }
    if a.limit.isSome then (s'.throwExpiry n).clearExpiry n else s'

/-- AMEND OBJECT at the Object Table (R46, R47). -/
def editAmendObject (body : List Byte) (s : State) : Edit :=
  let n := field body 0 2
  match amendFields body with
  | none => .refuse .outOfRange n none
  | some a =>
    match s.object n with
    | none => .refuse .noSuch n none
    | some r =>
      if !a.parametersOk r then .refuse .outOfRange n none
      else if (a.changesKind r || a.changesLink r) && s.referenced n r then .refuse .inUse n none
      else .accept (s.amendObject n r a) .ok .none

/-- AMEND_OBJECT (R46, R47). -/
def execAmendObject (f : ReqFrame) (s : State) : Host.Outcome State Fault Refusal :=
  (s.request .amendObject f (change .amendObject f.tag (editAmendObject f.body))).answer

/-! ### RETIRE OBJECT (R48) -/

/-- A record leaves the table, with its conditions, its places in the watch slots and the answers to its entries
(R48, R80, R177). -/
def State.retireObject (s : State) (n : Nat) : State :=
  ({ s with objects := s.objects.erase n }.unwatch (.object n)).dropAnswers n

/-- RETIRE OBJECT at the Object Table (R48). -/
def editRetireObject (body : List Byte) (s : State) : Edit :=
  let n := field body 0 2
  if !objectNumber n then .refuse .outOfRange n none
  else
    match s.object n with
    | none => .refuse .noSuch n none
    | some r => if s.referenced n r then .refuse .inUse n none else .accept (s.retireObject n) .ok .none

/-- RETIRE_OBJECT (R48). -/
def execRetireObject (f : ReqFrame) (s : State) : Host.Outcome State Fault Refusal :=
  (s.request .retireObject f (change .retireObject f.tag (editRetireObject f.body))).answer

/-! ### Lookups (R50, R51) -/

/-- The fields of the kind as READ OBJECT gives them (R50). -/
def KindRec.view : KindRec → KindView
  | .point p => .point p
  | .signal g => .signal g
  | .berth b => .berth b.occupancy b.timing b.queue.length

/-- A whole record as READ OBJECT gives it (R50). -/
def State.objectView (s : State) (n : Nat) (r : ObjectRec) : ObjectView where
  number := n
  link := r.link
  defined := r.defined
  since := r.since
  stale := r.stale
  conds := r.conds.states
  watch := s.watchMark (.object n)
  kind := r.kind.view

/-- READ OBJECT at the Object Table (R50). -/
def serveReadObject (body : List Byte) (s : State) : Reply :=
  let n := field body 0 2
  if !objectNumber n then .same s .outOfRange .none
  else
    match s.object n with
    | none => .same s .noSuch .none
    | some r => .same s .ok (.object (s.objectView n r))

/-- READ_OBJECT (R50). -/
def execReadObject (f : ReqFrame) (s : State) : Host.Outcome State Fault Refusal :=
  (s.request .readObject f (serveReadObject f.body)).answer

/-- A kind filter: 0 is ANY (R51). -/
def kindPasses (filter : Nat) (r : ObjectRec) : Bool := decide (filter = 0) || decide (filter = r.kind.kindOf.code)

/-- A stale filter: 0 ANY, 1 STALE, 2 NOT_STALE (R51). -/
def stalePasses (filter : Nat) (r : ObjectRec) : Bool :=
  match filter with
  | 0 => true
  | 1 => r.stale.isSome
  | _ => r.stale.isNone

/-- A condition filter: 0 ANY, 1 UNACKNOWLEDGED (R51). -/
def conditionPasses (filter : Nat) (r : ObjectRec) : Bool := decide (filter = 0) || r.conds.anyUnack

/-- The number of the record after the first `limit` selected, or 0 (R51, R104). -/
def nextStart {α : Type} (limit : Nat) (selected : List (Nat × α)) : Nat :=
  match selected[limit]? with
  | some e => e.1
  | none => 0

/-- The records a FIND OBJECTS selects, in ascending number order (R51). -/
def State.selectedObjects (s : State) (start kind stale condition : Nat) : List (Nat × ObjectRec) :=
  s.objects.filter fun e =>
    decide (start ≤ e.1) && kindPasses kind e.2 && stalePasses stale e.2 && conditionPasses condition e.2

/-- FIND OBJECTS at the Object Table (R51). -/
def serveFindObjects (body : List Byte) (s : State) : Reply :=
  let start := field body 0 2
  let kind := (byteAt body 2).toNat
  let stale := (byteAt body 3).toNat
  let condition := (byteAt body 4).toNat
  if objectNumber start && decide (kind ≤ 3) && decide (stale ≤ 2) && decide (condition ≤ 1) then
    let selected := s.selectedObjects start kind stale condition
    .same s .ok (.objects ((selected.take 32).map fun e => e.2.summary e.1) (nextStart 32 selected))
  else .same s .outOfRange .none

/-- FIND_OBJECTS (R51). -/
def execFindObjects (f : ReqFrame) (s : State) : Host.Outcome State Fault Refusal :=
  (s.request .findObjects f (serveFindObjects f.body)).answer

end Sys2Proof.Machine
end

