-- ==== Sys2Proof/Machine/PathOps.lean ====
section
/-! DEFINITION. The Timetable Checker's shared operations: the store and the pool, arming and expectations,
deadlines, the two lists, ending and retiring a path (chapters 5 and 6). -/

namespace Sys2Proof.Machine

/-! ### Times (R85, R90, R117) -/

/-- The absolute planned time of a timing point, in ms (R85). -/
def plannedMs (day : Nat) (p : Plan) : Nat := day * Config.msPerDay + p.planned * 30000

/-- The activation time of a path whose first timing point is planned at `p` (R90). -/
def State.activationTime (s : State) (day : Nat) (p : Plan) : Nat :=
  plannedMs day p - (s.settings.armingLead * 60000).toNat

/-- The timing point at an index. -/
def PathRec.point (p : PathRec) (index : Nat) : Option TimingPoint := p.points[index]?

/-- The activation time computed from timing point 0 (R90, R91, R92). -/
def State.reactivated (s : State) (p : PathRec) : PathRec :=
  match p.point 0 with
  | some t => { p with activation := s.activationTime p.day t.plan }
  | none => p

/-- The projected time of the first unpassed timing point (R117, steps 1 and 2). -/
def PathRec.projectedAt (p : PathRec) (t : Plan) : Int :=
  let carried := max 0 (p.carried - t.allowance)
  plannedMs p.day t + carried * 1000

/-- The first unpassed timing point, whose index is the passed count (6.4). -/
def PathRec.due (p : PathRec) : Option Plan := (p.point p.passed).map (·.plan)

/-- The OVERDUE deadline (R117). -/
def PathRec.overdueDeadline (p : PathRec) : Option Deadline :=
  p.due.map fun t => ⟨p.projectedAt t + (t.late : Int) * 1000, .overdue⟩

/-- The RETIRE deadline that the retention gives a path ended at a date (R97). -/
def State.retireDeadline (s : State) (ended : Date) : Option Deadline :=
  if 0 < s.settings.retention then some ⟨ended.ms + s.settings.retention * 60000, .retire⟩ else none

/-! ### The store and the pool (R84, R86) -/

/-- The copies a REPEAT PATH has not yet created (R99). -/
def RepeatOp.remaining (op : RepeatOp) : Nat := op.count + 1 - op.next

/-- The store places reserved (R84). -/
def State.reservedPlaces (s : State) : Nat :=
  match s.tc.repeatOp with
  | some op => op.remaining
  | none => 0

/-- A path number is reserved (R84, R99). -/
def State.reserved (s : State) (n : Nat) : Bool :=
  match s.tc.repeatOp with
  | some op => decide (op.first + (op.next - 1) ≤ n) && decide (n < op.first + op.count)
  | none => false

/-- A path number is stored or reserved (R84, R89 check 7). -/
def State.taken (s : State) (n : Nat) : Bool := (s.path n).isSome || s.reserved n

/-- The store is full for a request that needs `places` (R84). -/
def State.storeFull (s : State) (places : Nat) : Bool :=
  decide (Config.storePlaces < s.tc.paths.length + s.reservedPlaces + places)

/-- A new path record (R90, R93). -/
def State.newPath (s : State) (headcode : Headcode) (day : Nat) (plans : List Plan) : PathRec :=
  s.reactivated
    { headcode := headcode
      day := day
      state := .loaded
      activation := 0
      points := plans.map fun p => ⟨p, none⟩
      passed := 0
      carried := 0
      lastDeviation := none
      deadline := none
      ended := none
      conds := []
      templateInUse := false
      retireMarked := false }

/-- The pool's counts changed. -/
def State.withPool (s : State) (free reserved : Nat) : State :=
  { s with tc := { s.tc with poolFree := free, poolReserved := reserved } }

/-- A path is stored, its entries taken from the free entries (R86). -/
def State.storePath (s : State) (n : Nat) (p : PathRec) : State :=
  (s.setPath n p).withPool (s.tc.poolFree - p.points.length) s.tc.poolReserved

/-- A plan-content change is taken while the digest walker works (R108). -/
def State.disturb (s : State) : State :=
  { s with tc := { s.tc with digest := s.tc.digest.map fun d => { d with disturbed := true } } }

/-- A path leaves the store: its entries return to the free entries, its conditions go, and its watch slots
are emptied (R96, R108, R177). -/
def State.retirePath (s : State) (n : Nat) (p : PathRec) : State :=
  let s' := { s with tc := { s.tc with
    paths := s.tc.paths.erase n, poolFree := s.tc.poolFree + p.points.length } }
  (s'.unwatch (.path n)).disturb

/-! ### Expectations (R114, R115) -/

/-- A berth record with its queue changed; other kinds as they are. -/
def ObjectRec.onQueue (f : List Expectation → List Expectation) (r : ObjectRec) : ObjectRec :=
  match r.kind with
  | .berth b => { r with kind := .berth { b with queue := f b.queue } }
  | .point _ => r
  | .signal _ => r

/-- An expectation is appended at the tail of its berth's queue (R114). -/
def State.expect (s : State) (berth : Nat) (e : Expectation) : State :=
  s.onObject berth (ObjectRec.onQueue fun q => q ++ [e])

/-- The expectation of one timing point, where the point exists (R115). -/
def State.armPoint (s : State) (n : Nat) (p : PathRec) (index : Nat) : State :=
  match p.point index with
  | some t => s.expect t.plan.berth ⟨n, index⟩
  | none => s

/-- The next points of a path are armed (R115). -/
def State.armNext (s : State) (n : Nat) (p : PathRec) : State :=
  (s.armPoint n p p.passed).armPoint n p (p.passed + 1)

/-- All of a path's expectations are removed, and the queues close up (R95, R119, R129). -/
def State.disarm (s : State) (n : Nat) : State :=
  { s with objects := s.objects.mapVals (ObjectRec.onQueue fun q => q.filter fun e => e.path ≠ n) }

/-! ### Activation (R116) -/

/-- A LOADED path is armed and given its first deadline; its change of state is reported (R116, R88). -/
def State.activate (s : State) (n : Nat) (p : PathRec) : State :=
  let p' := { p with state := .armed, deadline := p.overdueDeadline }
  ((s.setPath n p').report (.path n)).armNext n p'

/-- Time-driven work runs (R112). -/
def State.serving (s : State) : Bool := decide (s.tc.service = .serving)

/-- A time has been reached, and time-driven work runs (R113). -/
def State.timeDue (s : State) (time : Int) : Bool := s.serving && decide (time ≤ (s.stationMs : Int))

/-- An immediate arming: a LOADED path whose activation time is already reached is armed in the same event
(R90 to R93, R100, R116). -/
def State.armIfDue (s : State) (n : Nat) : State :=
  match s.path n with
  | some p => if p.state = .loaded ∧ s.timeDue p.activation then s.activate n p else s
  | none => s

/-! ### The OVERDUE stage (R118, R120, R131) -/

/-- The LOST deadline that follows an OVERDUE stage for a point projected at a time (R118). -/
def State.lostDeadline (s : State) (projected : Int) : Deadline :=
  ⟨projected + s.settings.lostLimit * 60000, .lost⟩

/-- An OVERDUE stage is served (R118). -/
def State.overdue (s : State) (n : Nat) (p : PathRec) : State :=
  match p.due with
  | some t =>
    let projected := p.projectedAt t
    (s.setPath n { p with deadline := some (s.lostDeadline projected) }).beginCause (.path n) .pathOverdue
      (.pathOverdue p.passed projected)
  | none => s

/-- The path's deadline is due (R113). -/
def State.deadlineDue (s : State) (p : PathRec) : Bool :=
  match p.deadline with
  | some d => s.timeDue d.time
  | none => false

/-- The PATH_OVERDUE cause of a path whose OVERDUE deadline has just been set afresh, by a pass or a shift. An active
cause ends; where the new deadline is due already, the cause begins again within the same event, which is the service of
that deadline (R120, R131, R154). A cause that was not active is left to the deadline list (R113; log 34). -/
def State.renewOverdue (s : State) (n : Nat) : State :=
  let ended := s.endCause (.path n) .pathOverdue
  match ended.path n with
  | some p => if s.causeActive (.path n) .pathOverdue ∧ ended.deadlineDue p then ended.overdue n p else ended
  | none => ended

/-! ### Ending a path (R95, R97, R119, R130) -/

/-- A path ends: its state, its end date and any RETIRE deadline; its expectations and its PATH_OVERDUE cause
go; the change of state is reported. -/
def State.endPath (s : State) (n : Nat) (p : PathRec) (state : PathState) (date : Date) : State :=
  let p' := { p with state := state, ended := some date, deadline := s.retireDeadline date }
  (((s.setPath n p').report (.path n)).disarm n).endCause (.path n) .pathOverdue

/-! ### The two lists (R110, R111) -/

/-- An entry of a list: its time and its path number. -/
structure ListEntry where
  time : Int
  path : Nat
  deriving DecidableEq, Repr

/-- The order of both lists: entry time, then path number (Table 6-1). -/
def ListEntry.before (a b : ListEntry) : Bool :=
  decide (a.time < b.time) || (decide (a.time = b.time) && decide (a.path < b.path))

/-- An entry put in its place. -/
def insertEntry (e : ListEntry) : List ListEntry → List ListEntry
  | [] => [e]
  | x :: t => if e.before x then e :: x :: t else x :: insertEntry e t

/-- Entries in list order. -/
def inOrder (entries : List ListEntry) : List ListEntry := entries.foldr insertEntry []

/-- The activation list: exactly the LOADED paths, in order (R110). -/
def State.activationList (s : State) : List ListEntry :=
  inOrder (s.tc.paths.filterMap fun e =>
    if e.2.state = .loaded then some ⟨e.2.activation, e.1⟩ else none)

/-- The deadline list: exactly the paths with a next deadline, in order (R110, R111). -/
def State.deadlineList (s : State) : List ListEntry :=
  inOrder (s.tc.paths.filterMap fun e => e.2.deadline.map fun d => ⟨d.time, e.1⟩)

/-- The path at the head of the activation list, when it is due (R113). -/
def State.dueActivation (s : State) : Option (Nat × PathRec) :=
  match s.activationList with
  | e :: _ => if s.timeDue e.time then (s.path e.path).map fun p => (e.path, p) else none
  | [] => none

/-- The path at the head of the deadline list, when it is due and at a stage (R113). -/
def State.dueDeadline (s : State) (stage : Stage) : Option (Nat × PathRec) :=
  match s.deadlineList with
  | e :: _ =>
    match s.path e.path with
    | some p =>
      if s.timeDue e.time ∧ p.deadline.map (·.stage) = some stage then some (e.path, p) else none
    | none => none
  | [] => none

/-! ### Views (R103 to R105) -/

/-- A path summary (R104, Table 11-7). -/
def PathRec.summary (p : PathRec) (n : Nat) : PathSummary where
  number := n
  headcode := p.headcode
  day := p.day
  state := p.state
  points := p.points.length
  passed := p.passed
  lastDeviation := p.lastDeviation
  stage := p.deadline.map (·.stage)
  conditions := p.conds.length
  unacknowledged := p.conds.anyUnack
  templateInUse := p.templateInUse

end Sys2Proof.Machine
end

