-- ==== Sys2Proof/Machine/PathLookups.lean ====
section
/-! DEFINITION. The lookups of the Path Store and the plan digest (5.5, 5.6). -/

namespace Sys2Proof.Machine

/-! ### READ PATH (R103) -/

/-- A path record as READ PATH gives it, with up to 32 timing points from an index (R103). -/
def State.pathView (s : State) (n : Nat) (p : PathRec) (first : Nat) : PathView where
  number := n
  headcode := p.headcode
  day := p.day
  state := p.state
  activation := p.activation
  passed := p.passed
  carried := p.carried
  lastDeviation := p.lastDeviation
  deadline := p.deadline
  ended := p.ended
  conds := p.conds.states
  watch := s.watchMark (.path n)
  templateInUse := p.templateInUse
  count := p.points.length
  first := first
  points := (p.points.drop first).take 32

/-- READ PATH at the Timetable Checker (R103). -/
def serveReadPath (body : List Byte) (s : State) : Reply :=
  let n := field body 0 2
  let first := (byteAt body 2).toNat
  if n = 0 ∨ 63 < first then .same s .outOfRange .none
  else
    match s.path n with
    | none => .same s .noSuch .none
    | some p =>
      if p.points.length ≤ first then .same s .outOfRange .none
      else .same s .ok (.path (s.pathView n p first))

/-- READ_PATH (R103). -/
def execReadPath (f : ReqFrame) (s : State) : Host.Outcome State Fault Refusal :=
  (s.request .readPath f (serveReadPath f.body)).answer

/-! ### FIND PATHS (R104) -/

/-- A headcode filter: four zero bytes are ANY (R104, 11.2). -/
def headcodePasses (filter h : Headcode) : Bool := decide (filter.bytes = noHeadcode) || decide (filter = h)

/-- A state filter: 0 is ANY (R104). -/
def statePasses (filter : Nat) (st : PathState) : Bool := decide (filter = 0) || decide (filter = st.code)

/-- The paths a FIND PATHS selects, in ascending number order (R104). -/
def State.selectedPaths (s : State) (start state : Nat) (headcode : Headcode) : List (Nat × PathRec) :=
  s.tc.paths.filter fun e =>
    decide (start ≤ e.1) && statePasses state e.2.state && headcodePasses headcode e.2.headcode

/-- FIND PATHS at the Timetable Checker (R104). -/
def serveFindPaths (body : List Byte) (s : State) : Reply :=
  let start := field body 0 2
  let state := (byteAt body 2).toNat
  let headcode := Headcode.ofBytes body 3
  if start = 0 ∨ 6 < state ∨ ¬ (headcode.bytes = noHeadcode ∨ headcode.wellFormed) then .same s .outOfRange .none
  else
    let selected := s.selectedPaths start state headcode
    .same s .ok (.paths ((selected.take 16).map fun e => e.2.summary e.1) (nextStart 16 selected))

/-- FIND_PATHS (R104). -/
def execFindPaths (f : ReqFrame) (s : State) : Host.Outcome State Fault Refusal :=
  (s.request .findPaths f (serveFindPaths f.body)).answer

/-! ### READ BERTH QUEUE (R105) -/

/-- One expectation as READ BERTH QUEUE gives it (R105); every expectation names a stored path and one of its
points (R114). -/
def State.expectationView (s : State) (position : Nat) (e : Expectation) : Option ExpectationView :=
  match s.path e.path with
  | none => none
  | some p =>
    (p.point e.index).map fun t => ⟨position, e.path, p.headcode, e.index, t.plan.kind, t.plan.planned⟩

/-- The expectations from a start position on, up to 32, in queue order (R105). -/
def State.queueView (s : State) (queue : List Expectation) (start : Nat) : List ExpectationView :=
  ((queue.zipIdx.drop start).take 32).filterMap fun e => s.expectationView e.2 e.1

/-- The queue of a berth, when the number holds a BERTH record (R105). -/
def State.berthQueue (s : State) (n : Nat) : Option (List Expectation) :=
  match (s.object n).map ObjectRec.kind with
  | some (.berth b) => some b.queue
  | _ => none

/-- READ BERTH QUEUE at the Timetable Checker (R105). -/
def serveReadBerthQueue (body : List Byte) (s : State) : Reply :=
  let n := field body 0 2
  let start := field body 2 2
  if !objectNumber n || decide (2047 < start) then .same s .outOfRange .none
  else
    match s.berthQueue n with
    | none => .same s .noSuch .none
    | some queue => .same s .ok (.berthQueue queue.length (s.queueView queue start))

/-- READ_BERTH_QUEUE (R105). -/
def execReadBerthQueue (f : ReqFrame) (s : State) : Host.Outcome State Fault Refusal :=
  (s.request .readBerthQueue f (serveReadBerthQueue f.body)).answer

/-! ### The plan digest (R106 to R108) -/

/-- The stored path with the lowest number above a position (R106). -/
def State.nextToWalk (s : State) (position : Nat) : Option (Nat × PathRec) :=
  s.tc.paths.find? fun e => decide (position < e.1)

/-- With no path left above the position, the walk is over and the slot is completed (R106). -/
def State.digestComplete (s : State) (d : DigestWalk) : State :=
  if (s.nextToWalk d.position).isNone then
    { s with tc := { s.tc with digest := none } }.slotCompletes .ok
      (.digest (crc32Final d.crc) d.paths d.points d.disturbed)
  else { s with tc := { s.tc with digest := some d } }

/-- The walker before its first step (R106). -/
def DigestWalk.initial : DigestWalk := ⟨0, 0xFFFFFFFF#32, 0, 0, false⟩

/-- The walker after one path (R106, R107). -/
def DigestWalk.over (d : DigestWalk) (n : Nat) (p : PathRec) : DigestWalk :=
  { d with
    position := n
    crc := crc32Run d.crc (digestBytes n p)
    paths := d.paths + 1
    points := d.points + p.points.length }

/-- The walker takes the next path (R106; log 10). -/
def State.walkStep (s : State) : State :=
  match s.tc.digest with
  | none => s
  | some d =>
    match s.nextToWalk d.position with
    | some (n, p) => s.digestComplete (d.over n p)
    | none => s.digestComplete d

/-- DIGEST_WALK_STEP (R106, R107; log 2, log 10). -/
def execDigestWalkStep (s : State) : Host.Outcome State Fault Refusal := (s.whenRunning State.walkStep).answer

/-- DIGEST PLAN at the Timetable Checker (R106, R172; log 10). -/
def serveDigestPlan (tag : Byte) (s : State) : Reply :=
  ⟨(s.slotAccepts .digestPlan tag).digestComplete .initial, .started, .started s.sl.slot.displaced⟩

/-- DIGEST_PLAN (R106). -/
def execDigestPlan (f : ReqFrame) (s : State) : Host.Outcome State Fault Refusal :=
  (s.request .digestPlan f (serveDigestPlan f.tag)).answer

end Sys2Proof.Machine
end

