-- ==== Sys2Proof/Machine/Paths.lean ====
section
/-! DEFINITION. The requests that change the Path Store, in the order of checks of Table 5-6, and the creation of
copies (chapter 5). -/

namespace Sys2Proof.Machine

/-! ### The checks of Table 5-6 -/

/-- A berth named is a stored BERTH record (R89 check 8). -/
def State.isBerth (s : State) (n : Nat) : Bool :=
  match (s.object n).map ObjectRec.kind with
  | some (.berth _) => true
  | _ => false

/-- A route-check point named is a stored POINT record (R89 check 8). -/
def State.isPoint (s : State) (n : Nat) : Bool :=
  match (s.object n).map ObjectRec.kind with
  | some (.point _) => true
  | _ => false

/-- The objects a timing point names are stored records of the right kind (R89 check 8). -/
def State.namesStored (s : State) (p : Plan) : Bool :=
  s.isBerth p.berth &&
    match p.route with
    | some r => s.isPoint r.point
    | none => true

/-- The plans of a path's timing points. -/
def PathRec.plans (p : PathRec) : List Plan := p.points.map (·.plan)

/-- Every object a path names is a stored record of the right kind (R89 check 8). -/
def State.allStored (s : State) (plans : List Plan) : Bool := plans.all s.namesStored

/-- The index of the first element that fails a test. -/
def firstBad {α : Type} (ok : α → Bool) : List α → Option Nat
  | [] => none
  | x :: t => if ok x then (firstBad ok t).map (· + 1) else some 0

/-- The index of the first timing point planned earlier than the one before it (R89 check 9). -/
def firstDecrease : List Plan → Option Nat
  | [] => none
  | [_] => none
  | a :: b :: t => if b.planned < a.planned then some 1 else (firstDecrease (b :: t)).map (· + 1)

/-- A planned time moved by a shift, in half-minutes. -/
def shifted (planned : Nat) (delta : Int) : Int := (planned : Int) + delta

/-- A shifted planned time lies within 0 to 3,599 (R89 check 10). -/
def shiftOk (delta : Int) (p : Plan) : Bool :=
  decide (0 ≤ shifted p.planned delta) && decide (shifted p.planned delta ≤ 3599)

/-- The plan fields with the planned time shifted. -/
def Plan.shift (delta : Int) (p : Plan) : Plan := { p with planned := (shifted p.planned delta).toNat }

/-- A path in ARMED or RUNNING (R91). -/
def PathState.underWay : PathState → Bool
  | .armed | .running => true
  | .loaded | .complete | .cancelled | .lost => false

/-! ### LOAD PATH (R90) -/

/-- The timing-point entries of a LOAD PATH body, each read when it lies within its ranges (Table 11-3). -/
def loadEntries (body : List Byte) : List (Option Plan) :=
  (List.range (byteAt body 8).toNat).map fun i => planOf body (9 + 14 * i)

/-- The header of a LOAD PATH lies within its ranges (R89 check 2, R90). -/
def loadHeaderOk (body : List Byte) : Bool :=
  decide (field body 0 2 ≠ 0) && (Headcode.ofBytes body 2).wellFormed &&
    decide (2 ≤ (byteAt body 8).toNat) && decide ((byteAt body 8).toNat ≤ 64)

/-- A path is stored, the plan is marked changed, and the path may be armed at once (R90, R93, R108). -/
def State.loadPath (s : State) (n : Nat) (headcode : Headcode) (day : Nat) (plans : List Plan) : State :=
  ((s.storePath n (s.newPath headcode day plans)).disturb).armIfDue n

/-- The state a path stands in; LOADED where none is stored. -/
def State.pathState (s : State) (n : Nat) : PathState := ((s.path n).map (·.state)).getD .loaded

/-- LOAD PATH at the Timetable Checker (R90; checks 2, 7, 8, 9, 11, 12; log 12). -/
def editLoadPath (body : List Byte) (s : State) : Edit :=
  let n := field body 0 2
  let entries := loadEntries body
  let plans := entries.filterMap id
  if !loadHeaderOk body then .refuse .outOfRange n none
  else
    match firstBad Option.isSome entries with
    | some i => .refuse .outOfRange n (some i)
    | none =>
      if s.taken n then .refuse .numberInUse n none
      else
        match firstBad s.namesStored plans with
        | some i => .refuse .badObject n (some i)
        | none =>
          match firstDecrease plans with
          | some i => .refuse .order n (some i)
          | none =>
            if s.storeFull 1 then .refuse .storeFull n none
            else if s.tc.poolFree < plans.length then .refuse .poolFull n none
            else
              let s' := s.loadPath n (Headcode.ofBytes body 2) (field body 6 2) plans
              .accept s' .ok (.pathState (s'.pathState n))

/-- LOAD_PATH (R90). -/
def execLoadPath (f : ReqFrame) (s : State) : Host.Outcome State Fault Refusal :=
  (s.request .loadPath f (change .loadPath f.tag (editLoadPath f.body))).answer

/-! ### AMEND TIMING POINT (R91) -/

/-- The new planned time does not lie before the timing point ahead of it, nor after the one behind (R91, step 9). -/
def PathRec.keepsOrder (p : PathRec) (index : Nat) (plan : Plan) : Bool :=
  (match index with
    | 0 => true
    | i + 1 =>
      match p.point i with
      | some before => decide (before.plan.planned ≤ plan.planned)
      | none => true) &&
    match p.point (index + 1) with
    | some after => decide (plan.planned ≤ after.plan.planned)
    | none => true

/-- A path with the plan fields of one timing point replaced (R91). -/
def PathRec.replan (p : PathRec) (index : Nat) (plan : Plan) : PathRec :=
  { p with points := p.points.modify index fun t => { t with plan := plan } }

/-- An accepted amendment (R91). -/
def State.amendPoint (s : State) (n : Nat) (p : PathRec) (index : Nat) (plan : Plan) : State :=
  let p' := p.replan index plan
  if index = 0 ∧ p.state = .loaded then ((s.setPath n (s.reactivated p')).disturb).armIfDue n
  else (s.setPath n p').disturb

/-- AMEND TIMING POINT at the Timetable Checker (R91; checks 2 to 6 and 8 to 10). -/
def editAmendTimingPoint (body : List Byte) (s : State) : Edit :=
  let n := field body 0 2
  let index := (byteAt body 2).toNat
  let refuse := fun status => Edit.refuse status n (some index)
  match planOf body 3 with
  | none => refuse .outOfRange
  | some plan =>
    if n = 0 ∨ 63 < index then refuse .outOfRange
    else
      match s.path n with
      | none => refuse .noSuch
      | some p =>
        if p.templateInUse then refuse .inUse
        else if !p.state.live then refuse .stateConflict
        else if p.state.underWay && decide (index < p.passed + 2) then refuse .notWhileRunning
        else if !s.namesStored plan then refuse .badObject
        else if !p.keepsOrder index plan then refuse .order
        else if p.points.length ≤ index then refuse .outOfRange
        else .accept (s.amendPoint n p index plan) .ok .none

/-- AMEND_TIMING_POINT (R91). -/
def execAmendTimingPoint (f : ReqFrame) (s : State) : Host.Outcome State Fault Refusal :=
  (s.request .amendTimingPoint f (change .amendTimingPoint f.tag (editAmendTimingPoint f.body))).answer

/-! ### SHIFT PATH (R92, R120) -/

/-- The unpassed timing points, each shifted (R92). -/
def PathRec.shift (p : PathRec) (delta : Int) : PathRec :=
  { p with points :=
      p.points.take p.passed ++ (p.points.drop p.passed).map fun t => { t with plan := t.plan.shift delta } }

/-- In RUNNING, the first unpassed timing point stays no earlier than the last passed or skipped one
(R92, step 9). -/
def PathRec.shiftKeepsOrder (p : PathRec) (delta : Int) : Bool :=
  match p.state, p.passed with
  | .running, last + 1 =>
    match p.point last, p.point (last + 1) with
    | some before, some after => decide ((before.plan.planned : Int) ≤ shifted after.plan.planned delta)
    | _, _ => true
  | _, _ => true

/-- An accepted shift (R92, R120); on a live path PATH_OVERDUE ends, and begins again in the same event when the new
deadline is due (R154; log 34). -/
def State.shiftPath (s : State) (n : Nat) (p : PathRec) (delta : Int) : State :=
  let p' := p.shift delta
  if p.state = .loaded then ((s.setPath n (s.reactivated p')).disturb).armIfDue n
  else ((s.setPath n { p' with deadline := p'.overdueDeadline }).disturb).renewOverdue n

/-- SHIFT PATH at the Timetable Checker (R92; checks 2 to 5, 9 and 10). -/
def editShiftPath (body : List Byte) (s : State) : Edit :=
  let n := field body 0 2
  let delta := signed16 (field body 2 2)
  let refuse := fun status => Edit.refuse status n none
  if n = 0 ∨ delta < -720 ∨ 720 < delta then refuse .outOfRange
  else
    match s.path n with
    | none => refuse .noSuch
    | some p =>
      if p.templateInUse then refuse .inUse
      else if !p.state.live then refuse .stateConflict
      else if !p.shiftKeepsOrder delta then refuse .order
      else if !((p.points.drop p.passed).all fun t => shiftOk delta t.plan) then refuse .outOfRange
      else .accept (s.shiftPath n p delta) .ok .none

/-- SHIFT_PATH (R92). -/
def execShiftPath (f : ReqFrame) (s : State) : Host.Outcome State Fault Refusal :=
  (s.request .shiftPath f (change .shiftPath f.tag (editShiftPath f.body))).answer

/-! ### COPY PATH (R93) -/

/-- COPY PATH at the Timetable Checker (R93; checks 2, 3, 7, 8, 10, 11, 12; log 13). -/
def editCopyPath (body : List Byte) (s : State) : Edit :=
  let source := field body 0 2
  let n := field body 2 2
  let delta := signed16 (field body 4 2)
  let headcode := Headcode.ofBytes body 6
  let refuse := fun status => Edit.refuse status source none
  if source = 0 ∨ n = 0 ∨ delta < -720 ∨ 720 < delta ∨ !headcode.wellFormed then refuse .outOfRange
  else
    match s.path source with
    | none => refuse .noSuch
    | some p =>
      if s.taken n then .refuse .numberInUse n none
      else if !s.allStored p.plans then refuse .badObject
      else if !(p.plans.all (shiftOk delta)) then refuse .outOfRange
      else if s.storeFull 1 then refuse .storeFull
      else if s.tc.poolFree < p.points.length then refuse .poolFull
      else .accept (s.loadPath n headcode p.day (p.plans.map (Plan.shift delta))) .ok .none

/-- COPY_PATH (R93). -/
def execCopyPath (f : ReqFrame) (s : State) : Host.Outcome State Fault Refusal :=
  (s.request .copyPath f (change .copyPath f.tag (editCopyPath f.body))).answer

/-! ### REPEAT PATH (R98 to R101) -/

/-- The headcode of copy i (R99): the last two characters replaced when the serial step is above 0. -/
def copyHeadcode (template : Headcode) (step i : Nat) : Headcode :=
  if step = 0 then template
  else
    match template.serial with
    | some n => template.withSerial ((n + i * step) % 100)
    | none => template

/-- The lowest of the new path numbers found stored or reserved (R174). -/
def State.firstTaken (s : State) (first count : Nat) : Option Nat :=
  ((List.range count).map (first + ·)).find? s.taken

/-- The operation begins (R99): reservations, the template's mark, the parameters and the long-operation slot. -/
def State.beginRepeat (s : State) (tag : Byte) (op : RepeatOp) (p : PathRec) : State :=
  let entries := op.count * p.points.length
  let s' := (s.setPath op.template { p with templateInUse := true }).withPool
    (s.tc.poolFree - entries) (s.tc.poolReserved + entries)
  { s' with tc := { s'.tc with repeatOp := some op } }.slotAccepts .repeatPath tag

/-- REPEAT PATH at the Timetable Checker (R98; checks 2, 3, 7, 8, 10 to 12). -/
def editRepeatPath (tag : Byte) (body : List Byte) (s : State) : Edit :=
  let template := field body 0 2
  let first := field body 2 2
  let count := (byteAt body 4).toNat
  let interval := field body 5 2
  let step := (byteAt body 7).toNat
  let refuse := fun status => Edit.refuse status template none
  if template = 0 ∨ first = 0 ∨ count = 0 ∨ 64 < count ∨ interval = 0 ∨ 720 < interval ∨ 99 < step ∨
      65536 < first + count then refuse .outOfRange
  else
    match s.path template with
    | none => refuse .noSuch
    | some p =>
      match s.firstTaken first count with
      | some n => .refuse .numberInUse n none
      | none =>
        if !s.allStored p.plans then refuse .badObject
        else if 0 < step ∧ p.headcode.serial = none then refuse .badHeadcode
        else if !(p.plans.all (shiftOk (count * interval))) then refuse .outOfRange
        else if s.storeFull count then refuse .storeFull
        else if s.tc.poolFree < count * p.points.length then refuse .poolFull
        else .accept (s.beginRepeat tag ⟨template, first, count, interval, step, 1⟩ p) .started
          (.started s.sl.slot.displaced)

/-- REPEAT_PATH (R98, R99). -/
def execRepeatPath (f : ReqFrame) (s : State) : Host.Outcome State Fault Refusal :=
  (s.request .repeatPath f (change .repeatPath f.tag (editRepeatPath f.tag f.body))).answer

/-- Copy i of a series (R99). -/
def State.copyOf (s : State) (op : RepeatOp) (p : PathRec) : PathRec :=
  s.newPath (copyHeadcode p.headcode op.step op.next) p.day
    (p.plans.map (Plan.shift (op.next * op.interval)))

/-- The next copy is stored (R100): its number, its place and its entries stop being reserved. -/
def State.storeCopy (s : State) (op : RepeatOp) (p : PathRec) : State :=
  let n := op.first + (op.next - 1)
  let s' := (s.setPath n (s.copyOf op p)).withPool s.tc.poolFree (s.tc.poolReserved - p.points.length)
  { s' with tc := { s'.tc with repeatOp := some { op with next := op.next + 1 } } }.armIfDue n

/-- The template's mark is cleared, and the template is retired if it was marked for retirement (R97, R101). -/
def State.releaseTemplate (s : State) (n : Nat) : State :=
  match s.path n with
  | some p =>
    if p.retireMarked then s.retirePath n p else s.setPath n { p with templateInUse := false }
  | none => s

/-- The end of the operation (R101). -/
def State.endRepeat (s : State) (op : RepeatOp) : State :=
  ({ s with tc := { s.tc with repeatOp := none } }.releaseTemplate op.template).slotCompletes .ok
    (.copies op.count)

/-- The creation of the next copy, the last of which ends the operation (R100, R101). -/
def State.createCopy (s : State) : State :=
  match s.tc.repeatOp with
  | none => s
  | some op =>
    match s.path op.template with
    | none => s
    | some p => if op.next < op.count then s.storeCopy op p else (s.storeCopy op p).endRepeat op

/-- REPEAT_COPY_CREATION (R100, R101; log 2). -/
def execRepeatCopyCreation (s : State) : Host.Outcome State Fault Refusal :=
  (s.whenRunning State.createCopy).answer

/-! ### ARM, CANCEL and RETIRE PATH (R94 to R96) -/

/-- ARM PATH at the Timetable Checker (R94; checks 3 and 5; log 17). -/
def editArmPath (body : List Byte) (s : State) : Edit :=
  let n := field body 0 2
  match s.path n with
  | none => .refuse .noSuch n none
  | some p =>
    if p.state = .loaded then .accept (s.activate n p) .ok .none else .refuse .stateConflict n none

/-- ARM_PATH (R94). -/
def execArmPath (f : ReqFrame) (s : State) : Host.Outcome State Fault Refusal :=
  (s.request .armPath f (change .armPath f.tag (editArmPath f.body))).answer

/-- CANCEL PATH at the Timetable Checker (R95; checks 3 to 5; log 17). -/
def editCancelPath (body : List Byte) (s : State) : Edit :=
  let n := field body 0 2
  match s.path n with
  | none => .refuse .noSuch n none
  | some p =>
    if p.templateInUse then .refuse .inUse n none
    else if p.state.live then .accept (s.endPath n p .cancelled s.now) .ok .none
    else .refuse .stateConflict n none

/-- CANCEL_PATH (R95). -/
def execCancelPath (f : ReqFrame) (s : State) : Host.Outcome State Fault Refusal :=
  (s.request .cancelPath f (change .cancelPath f.tag (editCancelPath f.body))).answer

/-- RETIRE PATH at the Timetable Checker (R96; checks 3 to 5; log 17). -/
def editRetirePath (body : List Byte) (s : State) : Edit :=
  let n := field body 0 2
  match s.path n with
  | none => .refuse .noSuch n none
  | some p =>
    if p.templateInUse then .refuse .inUse n none
    else if p.state.underWay then .refuse .stateConflict n none
    else .accept (s.retirePath n p) .ok .none

/-- RETIRE_PATH (R96). -/
def execRetirePath (f : ReqFrame) (s : State) : Host.Outcome State Fault Refusal :=
  (s.request .retirePath f (change .retirePath f.tag (editRetirePath f.body))).answer

end Sys2Proof.Machine
end

