-- ==== Sys2Proof/Machine/TimeBase.lean ====
section
/-! DEFINITION. The Time Base: the reference message and its pairing, the pulse, the discipline states, the
expiries, and the time requests (chapter 1). -/

namespace Sys2Proof.Machine

/-! ### The reference message (R4, R5, R188) -/

/-- The message in a complete run of seven bytes after the start byte, when its check agrees and its second
field is 86,399 or less (R4, R188, Table 11-10). -/
def refMessage (bytes : List Byte) : Option RefMsg :=
  let second := field bytes 2 3
  if xorBytes (bytes.take 6) = byteAt bytes 6 ∧ second ≤ 86399 then
    some ⟨field bytes 0 2, second, (byteAt bytes 5).getLsbD 0⟩
  else none

/-- A completed message against the pairing window (R5). -/
def TimeBase.pair (t : TimeBase) (m : RefMsg) : TimeBase :=
  match t.precedingEdge with
  | none => { t with heldMsg := some m }
  | some edge =>
    if edge + 50 ≤ t.elapsed ∧ t.elapsed ≤ edge + 950 then { t with heldMsg := some m } else t

/-- More than 20 ms have passed since the last byte of the message being received (R4). -/
def TimeBase.refTimedOut (t : TimeBase) : Bool :=
  match t.refRx with
  | some rx => decide (rx.mark + Config.interByteLimit < t.elapsed)
  | none => false

/-- The message being received is abandoned (R4, R188). -/
def TimeBase.abandonMessage (t : TimeBase) : TimeBase := { t with refRx := none }

/-- A character taken as the next byte, or while waiting for the start byte (R188): the seventh character
after the start byte ends the message, which is paired or discarded. -/
def TimeBase.refByte (t : TimeBase) (b : Byte) : TimeBase :=
  match t.refRx with
  | none => if b = 0x24 then { t with refRx := some ⟨[], t.elapsed⟩ } else t
  | some rx =>
    let bytes := rx.bytes ++ [b]
    if bytes.length < 7 then { t with refRx := some ⟨bytes, t.elapsed⟩ }
    else
      match refMessage bytes with
      | some m => t.abandonMessage.pair m
      | none => t.abandonMessage

/-- A character of REF_MSG with its stop bit (R188). A gap of more than 20 ms before it has abandoned the
message (R4). -/
def TimeBase.refCharacter (t : TimeBase) (b : Byte) : TimeBase :=
  if t.refTimedOut then t.abandonMessage.refByte b else t.refByte b

/-- The Time Base changed while RESTART_N is not held. -/
def State.onTimeBase (s : State) (f : TimeBase → TimeBase) : State :=
  s.whenRunning fun s => { s with tb := f s.tb }

/-- REF_MSG_COMPLETE: the check byte of a message arrives (R4, R5, R188; log 11). -/
def execRefMsgComplete (b : Byte) (s : State) : Host.Outcome State Fault Refusal :=
  (s.onTimeBase fun t => t.refCharacter b).answer

/-- REF_MSG_CHARACTER: a character arrives on REF_MSG (R188; log 11). -/
def execRefMsgCharacter (b : Byte) (s : State) : Host.Outcome State Fault Refusal :=
  (s.onTimeBase fun t => t.refCharacter b).answer

/-- REF_MSG_INTER_BYTE_TIMEOUT: the message is abandoned (R4). -/
def execRefMsgInterByteTimeout (s : State) : Host.Outcome State Fault Refusal :=
  (s.onTimeBase fun t => if t.refTimedOut then t.abandonMessage else t).answer

/-- REF_MSG_BAD_CHARACTER: a missing stop bit abandons the message (R188). -/
def execRefMsgBadCharacter (s : State) : Host.Outcome State Fault Refusal :=
  (s.onTimeBase TimeBase.abandonMessage).answer

/-! ### The pulse (R6 to R10, R14 to R16) -/

/-- A step sets station time at once to a new value (R15, its actions on the Time Base's own record). -/
def TimeBase.stepTo (t : TimeBase) (us : Nat) : TimeBase :=
  { t with
    residual := 0
    lastStep := some ((us : Int) - t.stationUs)
    timeValid := true
    stationUs := us }

/-- The trim update (R16): division truncated toward zero, result clamped. -/
def trimUpdate (trim o : Int) : Int := clampInt (-50000) 50000 (trim - (o * 1000).tdiv 16)

/-- A valid pulse in ACQUIRE (R8), and whether it stepped. -/
def TimeBase.acquirePulse (t : TimeBase) (o : Int) (ref : Nat) : TimeBase × Bool :=
  if magnitude o ≤ Config.lockBand then
    if 8 ≤ t.good + 1 then ({ t with residual := o, good := 8, discipline := .locked, outliers := 0 }, false)
    else ({ t with residual := o, good := t.good + 1 }, false)
  else if magnitude o ≤ Config.stepThreshold then ({ t with residual := o, good := 0 }, false)
  else ({ t.stepTo ref with good := 0 }, true)

/-- A valid pulse by the discipline state (R7 to R10), and whether it stepped. -/
def TimeBase.pulse (t : TimeBase) (o : Int) (ref : Nat) : TimeBase × Bool :=
  match t.discipline with
  | .free => ({ t.stepTo ref with discipline := .acquire, good := 1, outliers := 0 }, true)
  | .acquire => t.acquirePulse o ref
  | .locked =>
    if magnitude o ≤ Config.stepThreshold then
      ({ t with residual := o, trim := trimUpdate t.trim o, outliers := 0 }, false)
    else if 3 ≤ t.outliers + 1 then
      ({ t.stepTo ref with discipline := .acquire, good := 0, outliers := 0 }, true)
    else ({ t with outliers := t.outliers + 1 }, false)
  | .holdover =>
    { t with holdoverStart := none, discipline := .acquire, good := 0 }.acquirePulse o ref
  | .drift =>
    if t.rangeHold then ({ t with outliers := min 3 (t.outliers + 1) }, false)
    else if Config.stepThreshold < magnitude o then
      ({ t.stepTo ref with holdoverStart := none, discipline := .acquire, good := 0, outliers := 0 }, true)
    else
      ({ t with residual := o, holdoverStart := none, discipline := .acquire, good := 0, outliers := 0 }, false)

/-- After the handling of a valid pulse: the last valid pulse and the gap timer (R6). -/
def TimeBase.afterPulse (t : TimeBase) : TimeBase :=
  { t with lastPulse := some t.stationUs, gapStart := if t.rangeHold then none else some t.stationUs }

/-- The Time Base after a valid pulse whose reference time is `ref`: the offset is recorded and the pulse
handled (R6). -/
def TimeBase.takePulse (t : TimeBase) (ref : Nat) : TimeBase × Bool :=
  let o : Int := (t.stationUs : Int) - ref
  let r := { t with lastOffset := some o }.pulse o ref
  (r.1.afterPulse, r.2)

/-- The change from an older state is announced when it stepped station time or changed the quality (R13). -/
def State.announceFrom (s old : State) (stepped : Bool) : State :=
  if stepped then
    s.announce (some ⟨old.tb.stationUs, s.tb.stationUs, (s.tb.stationUs : Int) - old.tb.stationUs⟩)
  else if s.quality = old.quality then s
  else s.announce none

/-- TIME_STEPPED is raised at each step (R15, R22). -/
def State.raiseStepped (s : State) (stepped : Bool) (source : StepSource) : State :=
  if stepped then s.raiseMomentary .timeBase .timeStepped (.timeStepped (s.tb.lastStep.getD 0) source) else s

/-- Both sustained causes of the Time Base end when it enters ACQUIRE (R22). -/
def State.endReferenceCauses (s : State) : State :=
  if s.tb.discipline = .acquire then
    (s.endCause .timeBase .referenceLost).endCause .timeBase .holdoverExpired
  else s

/-- A valid pulse at the whole part (R6 to R10, R13, R15, R22). -/
def State.validPulse (s : State) (ref : Nat) : State :=
  let r := s.tb.takePulse ref
  ((({ s with tb := r.1 }.announceFrom s r.2).raiseStepped r.2 .reference)).endReferenceCauses

/-- The reference time of a pulse: the day and second named, at microsecond 0 (R6). -/
def RefMsg.us (m : RefMsg) : Nat := m.day * Config.usPerDay + m.second * 1000000

/-- Every edge records its mark and consumes the held message (R6). -/
def TimeBase.edge (t : TimeBase) : TimeBase := { t with precedingEdge := some t.elapsed, heldMsg := none }

/-- A REF_PPS leading edge (R6). -/
def State.ppsEdge (s : State) : State :=
  let s' := { s with tb := s.tb.edge }
  match s.tb.heldMsg with
  | some m => if m.valid then s'.validPulse m.us else s'
  | none => s'

/-- REF_PPS_EDGE (R6). -/
def execRefPpsEdge (s : State) : Host.Outcome State Fault Refusal := (s.whenRunning State.ppsEdge).answer

/-! ### The expiries (R2, R11, R12) -/

/-- REFERENCE_LOST begins, unless active, with the station time of the last valid pulse (R22). -/
def State.beginReferenceLost (s : State) : State :=
  s.beginCause .timeBase .referenceLost (.referenceLost (s.tb.lastPulse.map (· / 1000)))

/-- HOLDOVER_EXPIRED begins, unless active, with the holdover limit in force (R22). -/
def State.beginHoldoverExpired (s : State) : State :=
  s.beginCause .timeBase .holdoverExpired (.holdoverExpired s.settings.holdoverLimit.toNat)

/-- 3 s of station time have passed since the last valid pulse, in ACQUIRE or LOCKED (R11). -/
def TimeBase.gapExpired (t : TimeBase) : Bool :=
  match t.gapStart with
  | some start =>
    decide (start + Config.referenceGap ≤ t.stationUs) &&
      (decide (t.discipline = .acquire) || decide (t.discipline = .locked))
  | none => false

/-- The Time Base enters HOLDOVER (R11). -/
def TimeBase.enterHoldover (t : TimeBase) : TimeBase :=
  { t with discipline := .holdover, good := 0, outliers := 0, holdoverStart := some t.elapsed, gapStart := none }

/-- The reference gap expires (R11). -/
def State.referenceGap (s : State) : State :=
  if s.tb.gapExpired then
    ({ s with tb := s.tb.enterHoldover }.announceFrom s false).beginReferenceLost
  else s

/-- REFERENCE_GAP_EXPIRY (R11). -/
def execReferenceGapExpiry (s : State) : Host.Outcome State Fault Refusal :=
  (s.whenRunning State.referenceGap).answer

/-- The value of the holdover timer, 0 while it is stopped (R12, R21). -/
def TimeBase.holdover (t : TimeBase) : Nat :=
  match t.holdoverStart with
  | some start => t.elapsed - start
  | none => 0

/-- The holdover timer stands at or beyond the limit in HOLDOVER (R12). -/
def State.holdoverReached (s : State) : Bool :=
  decide (s.tb.discipline = .holdover) && s.tb.holdoverStart.isSome &&
    decide (s.settings.holdoverLimit * 60000 ≤ (s.tb.holdover : Int))

/-- The Time Base enters DRIFT when its holdover timer has reached the limit; the timer runs on (R12). -/
def State.holdoverLimit (s : State) : State :=
  if s.holdoverReached then
    ({ s with tb := { s.tb with discipline := .drift } }.announceFrom s false).beginHoldoverExpired
  else s

/-- HOLDOVER_LIMIT_EXPIRY (R12). -/
def execHoldoverLimitExpiry (s : State) : Host.Outcome State Fault Refusal :=
  (s.whenRunning State.holdoverLimit).answer

/-- Station time has reached the last microsecond, and the hold is not yet on (R2). -/
def TimeBase.rangeReached (t : TimeBase) : Bool := decide (Config.lastUs ≤ t.stationUs) && !t.rangeHold

/-- The end-of-range hold comes on (R2). -/
def TimeBase.enterRangeHold (t : TimeBase) : TimeBase :=
  { t with rangeHold := true, residual := 0, gapStart := none, discipline := .drift }

/-- The end of range at the whole part (R2, R13, R22). Station time runs on while RESTART_N is held (R24), so the hold may
come on then; the announcement is sent at once, and that the causes wait for the release, which presents them, is the model's
choice (log 9). -/
def State.endOfRange (s : State) : State :=
  if s.tb.rangeReached then
    let s' := { s with tb := s.tb.enterRangeHold }.announceFrom s false
    if s.held then s' else s'.beginReferenceLost.beginHoldoverExpired
  else s

/-- END_OF_RANGE_HOLD (R2). -/
def execEndOfRangeHold (s : State) : Host.Outcome State Fault Refusal := s.endOfRange.answer

/-! ### Time requests (R19 to R21) -/

/-- SET TIME accepted (R19): the step of R15, and the end of an end-of-range hold. -/
def State.setTime (s : State) (us : Nat) : State :=
  ({ s with tb := { s.tb.stepTo us with rangeHold := false } }.announceFrom s true).raiseStepped true .setTime

/-- SET TIME at the Time Base (R19). -/
def serveSetTime (body : List Byte) (s : State) : Reply :=
  let day := field body 0 2
  let ms := field body 2 4
  if Config.msPerDay ≤ ms then .same s .outOfRange .none
  else if s.tb.discipline = .free ∨ s.tb.discipline = .drift then
    ⟨s.setTime (day * Config.usPerDay + ms * 1000), .ok, .none⟩
  else .same s .referenceInUse .none

/-- SET_TIME (R19). -/
def execSetTime (f : ReqFrame) (s : State) : Host.Outcome State Fault Refusal :=
  (s.request .setTime f (serveSetTime f.body)).answer

/-- GET TIME at the Time Base (R20). -/
def serveGetTime (s : State) : Reply :=
  .same s .ok (.time s.stationMs s.quality s.tb.timeValid s.elapsed s.civilMs)

/-- GET_TIME (R20). -/
def execGetTime (f : ReqFrame) (s : State) : Host.Outcome State Fault Refusal :=
  (s.request .getTime f serveGetTime).answer

/-- The Time Base's working record (R21). -/
def TimeBase.status (t : TimeBase) : TimeStatus where
  discipline := t.discipline
  good := t.good
  outliers := t.outliers
  trim := t.trim
  residual := t.residual
  lastOffset := t.lastOffset
  lastStep := t.lastStep
  lastPulseMs := t.lastPulse.map (· / 1000)
  holdover := t.holdover
  timeValid := t.timeValid
  rangeHold := t.rangeHold

/-- GET TIME STATUS at the Time Base (R21). -/
def serveGetTimeStatus (s : State) : Reply := .same s .ok (.timeStatus s.tb.status)

/-- GET_TIME_STATUS (R21). -/
def execGetTimeStatus (f : ReqFrame) (s : State) : Host.Outcome State Fault Refusal :=
  (s.request .getTimeStatus f serveGetTimeStatus).answer

end Sys2Proof.Machine
end

