-- ==== Sys2Proof/Machine/Timetable.lean ====
section
/-! DEFINITION. Timetable checking: time announcements, activations and deadline services, and the matching of
berth events (chapter 6). -/

namespace Sys2Proof.Machine

/-! ### Time announcements (R112, R133) -/

/-- The service state that goes with a quality (R112). -/
def Quality.service : Quality → Service
  | .unsync => .suspended
  | .locked => .serving
  | .holdover => .serving

/-- The first announcement sent is taken (R133). -/
def State.tcTakes (s : State) : State :=
  match s.tc.announcements with
  | a :: rest => { s with tc := { s.tc with announcements := rest, service := a.quality.service } }
  | [] => s

/-- TC_TAKES_TIME_ANNOUNCEMENT (R133; log 2). -/
def execTcTakesTimeAnnouncement (s : State) : Host.Outcome State Fault Refusal :=
  (s.whenRunning State.tcTakes).answer

/-! ### Services of the two lists (R113, R116, R118, R119, R97) -/

/-- The due head of the activation list is armed (R116). -/
def State.serveActivation (s : State) : State :=
  match s.dueActivation with
  | some (n, p) => s.activate n p
  | none => s

/-- ACTIVATION (R116; log 2). -/
def execActivation (s : State) : Host.Outcome State Fault Refusal := (s.whenRunning State.serveActivation).answer

/-- The due head of the deadline list, when it is at the OVERDUE stage, is served. -/
def State.serveOverdue (s : State) : State :=
  match s.dueDeadline .overdue with
  | some (n, p) => s.overdue n p
  | none => s

/-- OVERDUE_SERVICE (R118; log 2). -/
def execOverdueService (s : State) : Host.Outcome State Fault Refusal := (s.whenRunning State.serveOverdue).answer

/-- A LOST stage is served: the path is given up (R119). -/
def State.lose (s : State) (n : Nat) (p : PathRec) : State :=
  (s.endPath n p .lost s.now).raiseMomentary (.path n) .pathLost (.pathLost p.passed p.passed)

/-- The due head of the deadline list, when it is at the LOST stage, is served. -/
def State.serveLost (s : State) : State :=
  match s.dueDeadline .lost with
  | some (n, p) => s.lose n p
  | none => s

/-- LOST_SERVICE (R119; log 2). -/
def execLostService (s : State) : Host.Outcome State Fault Refusal := (s.whenRunning State.serveLost).answer

/-- A RETIRE stage is served: the path is retired, or its retirement deferred while it is the template of a
REPEAT PATH in flight (R97). -/
def State.autoRetire (s : State) (n : Nat) (p : PathRec) : State :=
  if p.templateInUse then s.setPath n { p with deadline := none, retireMarked := true } else s.retirePath n p

/-- The due head of the deadline list, when it is at the RETIRE stage, is served. -/
def State.serveRetire (s : State) : State :=
  match s.dueDeadline .retire with
  | some (n, p) => s.autoRetire n p
  | none => s

/-- RETIRE_DEADLINE_EXPIRY (R97; log 2). -/
def execRetireDeadlineExpiry (s : State) : Host.Outcome State Fault Refusal :=
  (s.whenRunning State.serveRetire).answer

/-! ### Matching (R122 to R124) -/

/-- A timing-point kind that an event of a direction fulfils (R122, R123). -/
def Direction.fulfils : Direction → PointKind → Bool
  | .entry _, .arrive => true
  | .entry _, .pass => true
  | .entry _, .depart => false
  | .exit, .depart => true
  | .exit, .arrive => false
  | .exit, .pass => false

/-- An expectation is fulfilled by an event: its path's headcode and its timing point's kind agree. -/
def State.fulfilled (s : State) (h : Headcode) (d : Direction) (e : Expectation) : Bool :=
  match s.path e.path with
  | none => false
  | some p =>
    match p.point e.index with
    | some t => decide (p.headcode = h) && d.fulfils t.plan.kind
    | none => false

/-- The expectation queue of a berth; empty where the record is no berth. -/
def State.queueOf (s : State) (n : Nat) : List Expectation :=
  match (s.object n).map ObjectRec.kind with
  | some (.berth b) => b.queue
  | _ => []

/-- The match of a berth event: the first expectation found, walking from the head (R122, R123). -/
def State.matchOf (s : State) (ev : BerthEvent) : Option Expectation :=
  (s.queueOf ev.berth).find? (s.fulfilled ev.headcode ev.direction)

/-! ### Judging a pass (R126 to R128) -/

/-- A pass is checked: the quality is LOCKED or HOLDOVER and the date kind OBSERVED (R126). -/
def Date.judged (d : Date) : Bool := decide (d.quality ≠ .unsync) && decide (d.kind = .observed)

/-- The deviation of a checked pass, in seconds (R126). -/
def deviationOf (actualMs plannedMs : Nat) : Int :=
  clampInt (-32767) 32767 (((actualMs : Int) - plannedMs).tdiv 1000)

/-- The outcome of a checked pass (R127). -/
def judgeDeviation (deviation : Int) (t : Plan) : PassOutcome :=
  if deviation < -(t.early : Int) then .early
  else if (t.late : Int) < deviation then .late
  else .onTime

/-- The result of a route check: the detected position and whether a movement was in flight, when the route is
wrong (R128). -/
def State.wrongRoute (s : State) (r : RouteCheck) : Option (Detected × Bool) :=
  match (s.object r.point).map ObjectRec.kind with
  | some (.point p) =>
    if p.movement.isSome ∨ p.detected ≠ r.expected.detected then some (p.detected, p.movement.isSome) else none
  | _ => none

/-- The wrong route of a timing point, when it carries a route check (R128). -/
def State.wrongRouteOf (s : State) (t : Plan) : Option (RouteCheck × Detected × Bool) :=
  match t.route with
  | some r => (s.wrongRoute r).map fun w => (r, w)
  | none => none

/-! ### The pass (R125 to R131) -/

/-- An outcome part is written. -/
def PathRec.withOutcome (p : PathRec) (index : Nat) (o : OutcomePart) : PathRec :=
  { p with points := p.points.modify index fun t => { t with outcome := some o } }

/-- The outcome part of a skipped point (R125). -/
def OutcomePart.skipped : OutcomePart := ⟨none, .skipped, none, false⟩

/-- The first armed point is skipped when the match is on the second (R125). -/
def PathRec.skipTo (p : PathRec) (k : Nat) : PathRec :=
  if k = p.passed + 1 then p.withOutcome p.passed .skipped else p

/-- The outcome part of a pass (R126 to R129). -/
def passOutcome (day : Nat) (t : Plan) (date : Date) (wrong : Bool) : OutcomePart :=
  if date.judged then
    let deviation := deviationOf date.ms (plannedMs day t)
    ⟨some date, judgeDeviation deviation t, some deviation, wrong⟩
  else ⟨some date, .notChecked, none, wrong⟩

/-- A checked pass sets the carried base and the last checked deviation (R127). -/
def PathRec.carrying (p : PathRec) (deviation : Option Int) : PathRec :=
  match deviation with
  | some d => { p with carried := d, lastDeviation := some d }
  | none => p

/-- The path's record after the pass of point k (R125, R127, R129): outcomes, carried base and passed count. -/
def PathRec.passedAt (p : PathRec) (k : Nat) (o : OutcomePart) : PathRec :=
  { ((p.skipTo k).withOutcome k o).carrying o.deviation with passed := k + 1 }

/-- PATH_SKIPPED is raised when the match is on the second armed point (R125). -/
def State.raiseSkipped (s : State) (n k : Nat) (p : PathRec) : State :=
  if k = p.passed + 1 then s.raiseMomentary (.path n) .pathSkipped (.pathSkipped p.passed k) else s

/-- PATH_LATE or PATH_EARLY is raised by the outcome (R127). -/
def State.raiseJudged (s : State) (n k : Nat) (o : OutcomePart) : State :=
  match o.outcome, o.deviation with
  | .late, some d => s.raiseMomentary (.path n) .pathLate (.pathJudged k d)
  | .early, some d => s.raiseMomentary (.path n) .pathEarly (.pathJudged k d)
  | _, _ => s

/-- PATH_WRONG_ROUTE is raised for a wrong route (R128). -/
def State.raiseWrongRoute (s : State) (n k : Nat) (w : Option (RouteCheck × Detected × Bool)) : State :=
  match w with
  | some (r, detected, moving) =>
    s.raiseMomentary (.path n) .pathWrongRoute (.pathWrongRoute k r.point r.expected detected moving)
  | none => s

/-- A path that stays live after a pass: RUNNING, its next points armed and its deadline afresh; PATH_OVERDUE, ended by
the pass, begins again in the same event when the new deadline is due (R129, R131, R154). -/
def State.runOn (s : State) (n : Nat) (p : PathRec) : State :=
  let p' := { p with state := .running, deadline := p.overdueDeadline }
  ((((s.setPath n p').report (.path n)).disarm n).armNext n p').renewOverdue n

/-- The path moves on after the pass: it completes or runs on, and either way its PATH_OVERDUE cause ends (R129 to
R131). -/
def State.moveOn (s : State) (n : Nat) (date : Date) : State :=
  match s.path n with
  | some p => if p.points.length ≤ p.passed then s.endPath n p .complete date else s.runOn n p
  | none => s

/-- The pass of timing point k by an event dated `date` (R125 to R131). -/
def State.passPoint (s : State) (n : Nat) (p : PathRec) (k : Nat) (t : Plan) (date : Date) : State :=
  let wrong := s.wrongRouteOf t
  let o := passOutcome p.day t date wrong.isSome
  let written := s.setPath n (p.passedAt k o)
  (((written.raiseSkipped n k p).raiseJudged n k o).raiseWrongRoute n k wrong).moveOn n date

/-! ### Taking a berth event (R122 to R125) -/

/-- A matched event passes the point its expectation stands for. -/
def State.matched (s : State) (e : Expectation) (date : Date) : State :=
  match s.path e.path with
  | some p =>
    match p.point e.index with
    | some t => s.passPoint e.path p e.index t.plan date
    | none => s
  | none => s

/-- An unmatched event: an ENTRY handed with the timing attribute yes is answered unmatched (R124). -/
def State.answerUnmatched (s : State) (ev : BerthEvent) : State :=
  match ev.direction with
  | .entry true => { s with answers := s.answers ++ [⟨ev.berth, ev.headcode, ev.date⟩] }
  | .entry false => s
  | .exit => s

/-- A berth event is matched or not (R122 to R124). -/
def State.berthEvent (s : State) (ev : BerthEvent) : State :=
  match s.matchOf ev with
  | some e => s.matched e ev.date
  | none => s.answerUnmatched ev

/-- The first berth event handed is taken (R79). -/
def State.takeBerthEvent (s : State) : State :=
  match s.berthEvents with
  | ev :: rest => { s with berthEvents := rest }.berthEvent ev
  | [] => s

/-- BERTH_EVENT (R122; log 2). -/
def execBerthEvent (s : State) : Host.Outcome State Fault Refusal := (s.whenRunning State.takeBerthEvent).answer

end Sys2Proof.Machine
end

