-- ==== Sys2Proof/Machine/Resets.lean ====
section
/-! DEFINITION. Power-on, and the two ends of a restart (R23, R24, R42, R60, R109, R135, R151, R152, R166, R180,
R185). -/

namespace Sys2Proof.Machine

/-- The load of a reset: working settings and settings source (R185). -/
def State.loadSettings (s : State) : State :=
  { s with settings := s.copy.load.1, source := s.copy.load.2 }

/-- The Timetable Checker sets its service state from the Time Base's quality as it begins work (R112). -/
def State.beginService (s : State) : State := { s with tc := { s.tc with service := s.quality.service } }

/-! ### Power-on -/

/-- A line at power-on, with the settings loaded (R151). -/
def State.powerOnLine (s : State) (i : Fin 4) : State :=
  let kind := s.settings.dialKind.get i
  if s.settings.lineEnable.get i then
    (s.onLine i fun l => { l with enabled := true, kind := kind, state := .unset }).beginDialUnset i .powerOn
  else s.onLine i fun l => { l with kind := kind }

/-- The part at power-on: every block from its power-on state, the stored copy kept, the settings loaded, and the
lines enabled by them presenting DIAL_UNSET (R23, R42, R60, R109, R151, R166, R180, R185; log 24). That the part runs
at once, whatever the level of RESTART_N at the power-on, is the model's choice (log 24). -/
def State.powerOn (s : State) : State :=
  let fresh := { State.reset with copy := s.copy, freeCount := s.freeCount, pending := s.pending }
  (four.foldl State.powerOnLine fresh.loadSettings).beginService

/-- POWER_ON (R23). -/
def execPowerOn (s : State) : Host.Outcome State Fault Refusal := s.powerOn.answer

/-! ### RESTART_N taken -/

/-- The Time Base at a restart (R24): the working record is kept, and LOCKED or ACQUIRE becomes HOLDOVER with the
holdover timer started again. -/
def TimeBase.restarted (t : TimeBase) : TimeBase :=
  let kept := { t with
    good := 0
    outliers := 0
    gapStart := none
    heldMsg := none
    precedingEdge := none
    refRx := none }
  match t.discipline with
  | .locked => { kept with discipline := .holdover, holdoverStart := some t.elapsed }
  | .acquire => { kept with discipline := .holdover, holdoverStart := some t.elapsed }
  | .free => kept
  | .holdover => kept
  | .drift => kept

/-- A Link Receiver at a restart: as at power-on, its conditions kept (R42, R166). -/
def Link.restarted (l : Link) : Link := { Link.initial with conds := l.conds }

/-- A line at a restart (R152): caught in a counted impulse, it is taken to have stepped and owes a resolving
impulse; every timer stops, and the drive is at rest (log 8). -/
def Line.restarted (l : Line) : Line :=
  match l.state with
  | .impulse c =>
    match c.form with
    | .counted =>
      { l with dial := l.dial.advanced l.kind c.polarity, resolving := true, state := .idle }
    | .resolving => { l with state := .idle }
  | .gap _ => { l with state := .idle }
  | .fault _ => { l with state := .idle }
  | .off => l
  | .unset => l
  | .idle => l
  | .wait _ => l

/-- RESTART_N is asserted (R24, R42, R60, R109, R135, R152, R180, R184): work in progress is abandoned, the stores
are emptied, drives go to rest, and the kept state is adjusted. Until the release the working settings stand as they were
(log 38), and the service state is SUSPENDED (log 39). -/
def State.restart (s : State) : State :=
  { s with
    tb := s.tb.restarted
    links := s.links.map Link.restarted
    objects := []
    berthEvents := []
    answers := []
    tc := .initial
    sc := ⟨s.sc.lines.map Line.restarted, []⟩
    sl := .initial
    watch := Vec.fill 16 .initial
    saving := none
    held := true }

/-- RESTART_TAKEN (R24; log 2). -/
def execRestartTaken (s : State) : Host.Outcome State Fault Refusal :=
  (if s.held then s else s.restart).answer

/-! ### RESTART_N released -/

/-- A cause is brought to what its block presents after the restart (R166): presented, it begins afresh; not
presented, an active one ends. -/
def State.present (s : State) (presented : Bool) (subject : Subject) (c : Class) (detail : Detail) : State :=
  if presented then s.causeBegins subject c detail else s.endCause subject c

/-- The Time Base compares its holdover timer with the loaded limit as it begins work (R12, R24). -/
def State.compareHoldover (s : State) : State :=
  if s.holdoverReached then { s with tb := { s.tb with discipline := .drift } }.announceFrom s false else s

/-- The Time Base presents its active causes afresh (R24, R166). -/
def State.presentTimeBase (s : State) : State :=
  let drift := decide (s.tb.discipline = .drift)
  let lost := drift || decide (s.tb.discipline = .holdover)
  (s.present lost .timeBase .referenceLost (.referenceLost (s.tb.lastPulse.map (· / 1000)))).present drift .timeBase
    .holdoverExpired (.holdoverExpired s.settings.holdoverLimit.toNat)

/-- Every link restarts QUIET, so a LINK_GAP cause ends (R42, R166). -/
def State.presentLink (s : State) (i : Fin 4) : State := s.endCause (.link i) .linkGap

/-- Civil time changed by the loaded settings is announced (R18, R24). -/
def State.announceLoadedCivil (s : State) (old : Settings) : State :=
  if s.settings.boundaryHour = old.boundaryHour ∧ s.settings.civilOffset = old.civilOffset then s
  else s.announceCivil

/-- A line takes the loaded settings and resumes (R152, R166). -/
def State.resumeLine (s : State) (i : Fin 4) : State :=
  let enabled := s.settings.lineEnable.get i
  let kind := s.settings.dialKind.get i
  let changed := decide (kind ≠ (s.line i).kind)
  let s' := (s.onLine i fun l =>
    let l := { l with enabled := enabled, state := if enabled then .idle else .off }
    if changed then l.rekinded kind else l).endCause (.line i) .lineFault
  if !enabled then s'.endCause (.line i) .dialUnset
  else if (s'.line i).dial.isSet then (s'.endCause (.line i) .dialUnset).evaluate i
  else
    (s'.onLine i fun l => { l with state := .unset }).causeBegins (.line i) .dialUnset
      (.dialUnset kind (if changed then .kindChange else .restart))

/-- RESTART_N is released (R24, R112, R152, R166, R185): the settings are loaded, the blocks resume work, and
they present their causes. -/
def State.release (s : State) : State :=
  let loaded := ({ s with held := false }).loadSettings
  let timed := (loaded.compareHoldover.announceLoadedCivil s.settings).presentTimeBase
  (four.foldl State.resumeLine (four.foldl State.presentLink timed)).beginService

/-- RESTART_RELEASE (R185; log 2). -/
def execRestartRelease (s : State) : Host.Outcome State Fault Refusal :=
  (if s.held then s.release else s).answer

end Sys2Proof.Machine
end

