-- ==== Sys2Proof/Machine/Service.lean ====
section
/-! DEFINITION. The Service Link's own commands: reading the response, frames that name no request, watch slots,
status and the edit fault latch (chapter 9). -/

namespace Sys2Proof.Machine

/-! ### READ transfers (R169) -/

/-- A READ transfer that clocks out `count` bytes after its command byte: the pending response from its first byte,
zeros past its end; a complete read closes the transaction (R169, R170). -/
def ServiceLink.readOut (l : ServiceLink) (count : Nat) : ServiceLink :=
  match l.transaction with
  | .closed => { l with out := List.replicate count 0 }
  | .inWork _ _ => { l with out := List.replicate count 0 }
  | .pending r =>
    let bytes := r.bytes
    let shifted := { l with out := (bytes ++ List.replicate count 0).take count }
    if bytes.length ≤ count then { shifted with transaction := .closed } else shifted

/-- READ_RESPONSE (R169, R180). -/
def execReadResponse (count : Nat) (s : State) : Host.Outcome State Fault Refusal :=
  (s.whenRunning fun s => { s with sl := s.sl.readOut count }).answer

/-! ### Frames that name no request (R167, R168, R171) -/

/-- A frame that cannot be understood is answered BAD_REQUEST by the Service Link itself (R171). -/
def badRequest (s : State) : Reply := .same s .badRequest .none

/-- A transfer that delivers no request of Table 9-2 (R167, R168, R171): a missing header byte is taken as 0. -/
def State.otherTransfer (s : State) : OtherTransfer → State
  | .incomplete => s
  | .otherCommand _ count => s.whenRunning fun s => s.shiftZeros count
  | .emptyWrite => s
  | .short1 code phase => s.takeFrame phase (.unnamed code 0) 1 badRequest
  | .short2 code tag phase => s.takeFrame phase (.unnamed code tag) 2 badRequest
  | .short3 code tag _ phase => s.takeFrame phase (.unnamed code tag) 3 badRequest
  | .unknownCode code f => s.takeFrame f.phase (.unnamed code.val f.tag) (4 + f.body.length) badRequest

/-- UNKNOWN_REQUEST_FRAME (R167, R168, R171). -/
def execUnknownRequestFrame (t : OtherTransfer) (s : State) : Host.Outcome State Fault Refusal :=
  (s.otherTransfer t).answer

/-! ### Owners asked in turn (R171, R178, R179) -/

/-- What one owner's event gives: the records after it, and what has been taken so far or the answer. -/
inductive Turn
  | more (state : State) (taken : Gathered)
  | last (reply : Reply)

/-! ### Watch slots (R176, R178) -/

/-- The summary of a watched subject, as its record stands (R51, R104). -/
def State.summaryOf (s : State) : Watched → Option Summary
  | .none => none
  | .object n => (s.object n).map fun r => .object (r.summary n)
  | .path n => (s.path n).map fun p => .path (p.summary n)

/-- The subject a SET WATCH names, within its ranges (R176). -/
def watchedOf (kind number : Nat) : Option Watched :=
  match kind with
  | 0 => some .none
  | 3 => if 1 ≤ number ∧ number ≤ 4095 then some (.object number) else none
  | 4 => if 1 ≤ number ∧ number ≤ 65535 then some (.path number) else none
  | _ => none

/-- A subject may be watched: NONE, or a stored record (R176). -/
def State.watchable (s : State) : Watched → Bool
  | .none => true
  | .object n => (s.object n).isSome
  | .path n => (s.path n).isSome

/-- A slot takes a subject, is marked changed, and loses any retired note (R176). -/
def State.setWatch (s : State) (slot : Fin 16) (w : Watched) : State :=
  { s with watch := s.watch.set slot ⟨w, true, none⟩ }

/-- SET WATCH at the Service Link (R176). -/
def serveSetWatch (body : List Byte) (s : State) : Reply :=
  let slot := (byteAt body 0).toNat
  if h : slot < 16 then
    match watchedOf (byteAt body 1).toNat (field body 2 2) with
    | none => .same s .outOfRange .none
    | some w =>
      if s.watchable w then ⟨s.setWatch ⟨slot, h⟩ w, .ok, .summary (s.summaryOf w)⟩ else .same s .noSuch .none
  else .same s .outOfRange .none

/-- SET_WATCH (R176). -/
def execSetWatch (f : ReqFrame) (s : State) : Host.Outcome State Fault Refusal :=
  (s.request .setWatch f (serveSetWatch f.body)).answer

/-- A slot after READ WATCH has taken it (R178). -/
def WatchSlot.read (x : WatchSlot) : WatchSlot := { x with changed := false, retired := none }

/-- A slot as READ WATCH takes it, with its subject's summary as the record stands (R178). -/
def State.slotView (s : State) (x : WatchSlot) : WatchView := ⟨x, s.summaryOf x.subject⟩

/-- READ WATCH with every slot taken at one moment (R178). -/
def serveReadWatch (s : State) : Reply :=
  ⟨{ s with watch := s.watch.map WatchSlot.read }, .ok, .watch (s.watch.val.map s.slotView)⟩

/-- READ WATCH takes the next slot, as one event (R178). -/
def State.askSlot (s : State) (taken : List WatchView) (k : Fin 16) : Turn :=
  let slots := taken ++ [s.slotView (s.watch.get k)]
  let after := { s with watch := s.watch.set k (s.watch.get k).read }
  if more : k.val + 1 < 16 then .more after (.watch slots ⟨k.val + 1, more⟩) else .last ⟨after, .ok, .watch slots⟩

/-! ### GET STATUS (R179) -/

/-- The status as GET STATUS gives it (R179); the identity is fixed (11.1). -/
def State.statusView (s : State) : StatusView where
  vendor := 0x4E48#16
  part := 0x0028#16
  issue := 0x41#8
  slot := s.sl.slot
  latch := s.sl.latch
  source := s.source
  objects := s.objects.length
  paths := s.tc.paths.length
  poolFree := s.tc.poolFree
  poolReserved := s.tc.poolReserved
  discipline := s.tb.discipline
  timeValid := s.tb.timeValid

/-- The slot with its completion read (R173). -/
def Slot.read : Slot → Slot
  | .empty => .empty
  | .inFlight kind tag accepted => .inFlight kind tag accepted
  | .done c => .done { c with unread := false }

/-- The body of GET STATUS is formed: a completion-unread flag that was set in the slot it gives is cleared. A completion
that ended since the slot was taken stays unread (R173, R179). -/
def State.statusRead (s : State) (taken : Slot) : State :=
  match taken with
  | .empty => s
  | .inFlight _ _ _ => s
  | .done _ => { s with sl := { s.sl with slot := s.sl.slot.read } }

/-- GET STATUS with every owner asked at one moment (R179). -/
def serveGetStatus (s : State) : Reply := ⟨s.statusRead s.sl.slot, .ok, .status s.statusView⟩

/-- GET STATUS asks the next owner for its items, as one event (R179). That the owners are asked in the order of R179's list,
and that the flag is cleared in the event of the last, is the model's choice (log 6). -/
def State.askStatus (s : State) (v : StatusView) : StatusOwner → Turn
  | .serviceLink => .more s (.status { v with slot := s.sl.slot, latch := s.sl.latch } .settingsStore)
  | .settingsStore => .more s (.status { v with source := s.source } .objectTable)
  | .objectTable => .more s (.status { v with objects := s.objects.length } .pathStore)
  | .pathStore => .more s (.status { v with paths := s.tc.paths.length } .pool)
  | .pool => .more s (.status { v with poolFree := s.tc.poolFree, poolReserved := s.tc.poolReserved } .timeBase)
  | .timeBase =>
    .last ⟨s.statusRead v.slot, .ok, .status { v with discipline := s.tb.discipline, timeValid := s.tb.timeValid }⟩

/-! ### Answers gathered in turn (R171) -/

/-- The next owner of an answer is asked (R178, R179). -/
def Gathered.ask (g : Gathered) (s : State) : Turn :=
  match g with
  | .watch taken next => s.askSlot taken next
  | .status items next => s.askStatus items next

/-- The next owner is asked; that the event of the last makes the response ready is the model's choice (log 6). -/
def State.askNext (s : State) (frame : Collected) (lost : Bool) (taken : Gathered) : State :=
  match taken.ask s with
  | .more after taken' => after.withTransaction (.inWork (.gathering frame taken') lost)
  | .last r => r.makeReady (.gathering frame taken) lost s.sl.out

/-- One service of a frame in work whose owners are asked in turn: the frame is judged at the first (R171), and each asks
one owner; nothing where another frame, or none, is in work. -/
def State.serveInTurn (s : State) (frame : Collected) (start : Gathered) : State :=
  match s.sl.transaction with
  | .inWork (.request code kept) lost =>
    if code = start.code ∧ kept = frame then
      if frameOk code kept then s.askNext kept lost start
      else (badRequest s).makeReady (.request code kept) lost s.sl.out
    else s
  | .inWork (.gathering kept taken) lost =>
    if taken.code = start.code ∧ kept = frame then s.askNext kept lost taken else s
  | .inWork (.unnamed _ _) _ => s
  | .closed => s
  | .pending _ => s

/-- A request whose owners are asked in turn, at its phase. Served in the event of its admission it finds every owner at
one moment (log 6). -/
def State.requestInTurn (s : State) (f : ReqFrame) (serve : State → Reply) (start : Gathered) : State :=
  match f.phase with
  | .service => s.whenRunning fun s => s.serveInTurn (collect f.toFrame) start
  | .whole => s.request start.code f serve
  | .write => s.request start.code f serve

/-- READ_WATCH (R178). -/
def execReadWatch (f : ReqFrame) (s : State) : Host.Outcome State Fault Refusal :=
  (s.requestInTurn f serveReadWatch (.watch [] 0)).answer

/-- GET_STATUS (R179). -/
def execGetStatus (f : ReqFrame) (s : State) : Host.Outcome State Fault Refusal :=
  (s.requestInTurn f serveGetStatus (.status s.statusView .serviceLink)).answer

/-! ### CLEAR EDIT FAULT (R175) -/

/-- CLEAR EDIT FAULT at the Service Link (R175). -/
def serveClearEditFault (s : State) : Reply :=
  ⟨{ s with sl := { s.sl with latch := none } }, .ok, .latch s.sl.latch⟩

/-- CLEAR_EDIT_FAULT (R175). -/
def execClearEditFault (f : ReqFrame) (s : State) : Host.Outcome State Fault Refusal :=
  (s.request .clearEditFault f serveClearEditFault).answer

end Sys2Proof.Machine
end

