-- ==== Sys2Proof/Machine/SettingRequests.lean ====
section
/-! DEFINITION. The requests of the Settings Store, and the hand-over of a change to its owner (chapter 10). -/

namespace Sys2Proof.Machine

/-! ### SET SETTING (R182) -/

/-- The owner of a changed setting applies it, as Table 10-1 gives. The settings already hold the new value. -/
def State.handOver (s : State) (item : SettingItem) (n : Nat) : State :=
  let i := index4 n
  match item with
  | .boundaryHour => s.announceCivil
  | .civilOffset => s.announceCivil
  | .holdoverLimit => s.holdoverLimit
  | .linkEnable => if s.settings.linkEnable.get i then s.enableLink i else s.disableLink i
  | .silenceLimit => s.silence i
  | .lineEnable => s.lineEnableChanged i
  | .dialKind => s.dialKindChanged i
  | .gap => s.gapEnds i
  | .holdWindow => s.evaluateResting i
  | .linkLatency | .lostLimit | .armingLead | .retention | .impulseWidth | .classPriority | .classLine
  | .watchAttention => s

/-- A value is written into a working setting and, when it differs from the working value, handed over (R182). -/
def State.setSetting (s : State) (item : SettingItem) (n : Nat) (v : Int) : State :=
  if s.settings.read item n = v then s else { s with settings := s.settings.write item n v }.handOver item n

/-- SET SETTING at the Settings Store (R182). -/
def serveSetSetting (body : List Byte) (s : State) : Reply :=
  let n := (byteAt body 1).toNat
  let v := signed16 (field body 2 2)
  match SettingItem.ofCode (byteAt body 0).toNat with
  | none => .same s .outOfRange .none
  | some item =>
    if !item.numbers.contains n then .same s .outOfRange .none
    else if item.inRange v then ⟨s.setSetting item n v, .ok, .value v⟩
    else if item.named then .same s .outOfRange .none
    else ⟨s.setSetting item n (item.clamp v), .clamped, .value (item.clamp v)⟩

/-- SET_SETTING (R182). -/
def execSetSetting (f : ReqFrame) (s : State) : Host.Outcome State Fault Refusal :=
  (s.request .setSetting f (serveSetSetting f.body)).answer

/-! ### READ SETTINGS (R183) -/

/-- READ SETTINGS at the Settings Store (R183). -/
def serveReadSettings (s : State) : Reply := .same s .ok (.settings s.settings s.source s.copy)

/-- READ_SETTINGS (R183). -/
def execReadSettings (f : ReqFrame) (s : State) : Host.Outcome State Fault Refusal :=
  (s.request .readSettings f serveReadSettings).answer

/-! ### SAVE SETTINGS (R184) -/

/-- The snapshot of a save: the image of the working settings and its check (R184). -/
def Settings.snapshot (w : Settings) : Snapshot := ⟨w.image, imageCheck w.image⟩

/-- SAVE SETTINGS at the Settings Store (R184, R172). -/
def serveSaveSettings (tag : Byte) (s : State) : Reply :=
  ⟨{ s with saving := some s.settings.snapshot, copy := .invalid }.slotAccepts .saveSettings tag, .started,
    .started s.sl.slot.displaced⟩

/-- SAVE_SETTINGS (R184). -/
def execSaveSettings (f : ReqFrame) (s : State) : Host.Outcome State Fault Refusal :=
  (s.request .saveSettings f (serveSaveSettings f.tag)).answer

/-- The store write ends and is verified (R184). -/
def State.saveEnds (s : State) (agrees : Bool) : State :=
  match s.saving with
  | none => s
  | some snap =>
    if agrees then
      { s with saving := none, copy := .valid snap.image snap.check }.slotCompletes .ok (.save snap.check)
    else { s with saving := none, copy := .invalid }.slotCompletes .storeFailed (.save snap.check)

/-- SAVE_WRITE_COMPLETE (R184; log 2). -/
def execSaveWriteComplete (agrees : Bool) (s : State) : Host.Outcome State Fault Refusal :=
  (s.whenRunning fun s => s.saveEnds agrees).answer

end Sys2Proof.Machine
end

