-- ==== Sys2Proof/Machine/Dispatch.lean ====
section
/-! DEFINITION. One arm for each command: its meaning. -/

namespace Sys2Proof.Machine

/-- The effect of a command on everything but the queue. -/
def exec (i : Instr) (s : State) : Host.Outcome State Fault Refusal :=
  match i with
  | .powerOn => Sys2Proof.Machine.execPowerOn s
  | .restartTaken => Sys2Proof.Machine.execRestartTaken s
  | .restartRelease => Sys2Proof.Machine.execRestartRelease s
  | .refMsgComplete b => Sys2Proof.Machine.execRefMsgComplete b s
  | .refMsgInterByteTimeout => Sys2Proof.Machine.execRefMsgInterByteTimeout s
  | .refMsgBadCharacter => Sys2Proof.Machine.execRefMsgBadCharacter s
  | .refPpsEdge => Sys2Proof.Machine.execRefPpsEdge s
  | .tcTakesTimeAnnouncement => Sys2Proof.Machine.execTcTakesTimeAnnouncement s
  | .scTakesTimeAnnouncement => Sys2Proof.Machine.execScTakesTimeAnnouncement s
  | .referenceGapExpiry => Sys2Proof.Machine.execReferenceGapExpiry s
  | .holdoverLimitExpiry => Sys2Proof.Machine.execHoldoverLimitExpiry s
  | .endOfRangeHold => Sys2Proof.Machine.execEndOfRangeHold s
  | .setTime f => Sys2Proof.Machine.execSetTime f s
  | .getTime f => Sys2Proof.Machine.execGetTime f s
  | .getTimeStatus f => Sys2Proof.Machine.execGetTimeStatus f s
  | .telegramReceived l b => Sys2Proof.Machine.execTelegramReceived l b s
  | .linkInterByteTimeout l => Sys2Proof.Machine.execLinkInterByteTimeout l s
  | .linkBadCharacter l => Sys2Proof.Machine.execLinkBadCharacter l s
  | .lengthByteRejected l b => Sys2Proof.Machine.execLengthByteRejected l b s
  | .silenceExpiry l => Sys2Proof.Machine.execSilenceExpiry l s
  | .unlockCapture f => Sys2Proof.Machine.execUnlockCapture f s
  | .readLink f => Sys2Proof.Machine.execReadLink f s
  | .defineObject f => Sys2Proof.Machine.execDefineObject f s
  | .amendObject f => Sys2Proof.Machine.execAmendObject f s
  | .retireObject f => Sys2Proof.Machine.execRetireObject f s
  | .readObject f => Sys2Proof.Machine.execReadObject f s
  | .findObjects f => Sys2Proof.Machine.execFindObjects f s
  | .takeTelegramEntry l => Sys2Proof.Machine.execTakeTelegramEntry l s
  | .takeGapMarker l => Sys2Proof.Machine.execTakeGapMarker l s
  | .throwLimitExpiry n => Sys2Proof.Machine.execThrowLimitExpiry n s
  | .clearLimitExpiry n => Sys2Proof.Machine.execClearLimitExpiry n s
  | .unmatchedAnswer => Sys2Proof.Machine.execUnmatchedAnswer s
  | .berthEvent => Sys2Proof.Machine.execBerthEvent s
  | .loadPath f => Sys2Proof.Machine.execLoadPath f s
  | .amendTimingPoint f => Sys2Proof.Machine.execAmendTimingPoint f s
  | .shiftPath f => Sys2Proof.Machine.execShiftPath f s
  | .copyPath f => Sys2Proof.Machine.execCopyPath f s
  | .repeatPath f => Sys2Proof.Machine.execRepeatPath f s
  | .repeatCopyCreation => Sys2Proof.Machine.execRepeatCopyCreation s
  | .armPath f => Sys2Proof.Machine.execArmPath f s
  | .cancelPath f => Sys2Proof.Machine.execCancelPath f s
  | .retirePath f => Sys2Proof.Machine.execRetirePath f s
  | .readPath f => Sys2Proof.Machine.execReadPath f s
  | .findPaths f => Sys2Proof.Machine.execFindPaths f s
  | .readBerthQueue f => Sys2Proof.Machine.execReadBerthQueue f s
  | .digestPlan f => Sys2Proof.Machine.execDigestPlan f s
  | .digestWalkStep => Sys2Proof.Machine.execDigestWalkStep s
  | .activation => Sys2Proof.Machine.execActivation s
  | .overdueService => Sys2Proof.Machine.execOverdueService s
  | .lostService => Sys2Proof.Machine.execLostService s
  | .retireDeadlineExpiry => Sys2Proof.Machine.execRetireDeadlineExpiry s
  | .dialTargetChange => Sys2Proof.Machine.execDialTargetChange s
  | .impulseSense l x => Sys2Proof.Machine.execImpulseSense l x s
  | .impulseCompletion l => Sys2Proof.Machine.execImpulseCompletion l s
  | .gapEnd l => Sys2Proof.Machine.execGapEnd l s
  | .faultRetryExpiry l => Sys2Proof.Machine.execFaultRetryExpiry l s
  | .dialSet f => Sys2Proof.Machine.execDialSet f s
  | .readLine f => Sys2Proof.Machine.execReadLine f s
  | .nextCondition f => Sys2Proof.Machine.execNextCondition f s
  | .ackCondition f => Sys2Proof.Machine.execAckCondition f s
  | .readConditions f => Sys2Proof.Machine.execReadConditions f s
  | .readResponse n => Sys2Proof.Machine.execReadResponse n s
  | .unknownRequestFrame t => Sys2Proof.Machine.execUnknownRequestFrame t s
  | .setWatch f => Sys2Proof.Machine.execSetWatch f s
  | .readWatch f => Sys2Proof.Machine.execReadWatch f s
  | .getStatus f => Sys2Proof.Machine.execGetStatus f s
  | .clearEditFault f => Sys2Proof.Machine.execClearEditFault f s
  | .setSetting f => Sys2Proof.Machine.execSetSetting f s
  | .readSettings f => Sys2Proof.Machine.execReadSettings f s
  | .saveSettings f => Sys2Proof.Machine.execSaveSettings f s
  | .saveWriteComplete ok => Sys2Proof.Machine.execSaveWriteComplete ok s
  | .linkCharacterReceived l b => Sys2Proof.Machine.execLinkCharacterReceived l b s
  | .refMsgCharacter b => Sys2Proof.Machine.execRefMsgCharacter b s

end Sys2Proof.Machine
end

