-- ==== Sys2Proof/Machine/Idle.lean ====
section
/-! DEFINITION. What the part does when no command waits: its own events, or the passing of time (log 1). -/

namespace Sys2Proof.Machine

/-- The command that holds when a test does. -/
def whenDue (due : Bool) (c : Instr) : List Instr := if due then [c] else []

/-- What a line's current sense reads when no command says so: a free value (log 1). -/
def freeSenseOf (n : Nat) : Sense :=
  match n % 3 with
  | 0 => .opened
  | 1 => .normal
  | _ => .short

/-- The timed events of the Time Base that are due (R2, R4, R11, R12). -/
def State.dueAtTimeBase (s : State) : List Instr :=
  whenDue s.tb.gapExpired .referenceGapExpiry ++ whenDue s.holdoverReached .holdoverLimitExpiry ++
    whenDue s.tb.refTimedOut .refMsgInterByteTimeout

/-- The timed events of a link that are due (R26, R33). -/
def State.dueAtLink (s : State) (i : Fin 4) : List Instr :=
  whenDue (s.settings.linkEnable.get i && s.interByteDue i) (.linkInterByteTimeout i) ++
    whenDue (s.silenceDue i) (.silenceExpiry i)

/-- The limit timer of a record that is due (R62). -/
def ObjectRec.dueLimit (r : ObjectRec) (n elapsed : Nat) : List Instr :=
  match r.kind with
  | .point p => whenDue (p.throwDue elapsed) (.throwLimitExpiry n)
  | .signal g => whenDue (g.clearDue elapsed) (.clearLimitExpiry n)
  | .berth _ => []

/-- The timed event of a line that is due (R140 to R143). -/
def State.dueAtLine (s : State) (i : Fin 4) : List Instr :=
  match (s.line i).state with
  | .impulse c =>
    if c.sensed then whenDue (decide (c.endMark ≤ s.elapsed)) (.impulseCompletion i)
    else whenDue (decide (c.senseMark ≤ s.elapsed)) (.impulseSense i (freeSenseOf (Config.freeSense s.freeCount)))
  | .gap _ => whenDue (s.gapDue i) (.gapEnd i)
  | .fault mark => whenDue (decide (mark ≤ s.elapsed)) (.faultRetryExpiry i)
  | .off | .unset | .idle | .wait _ => []

/-- A resting line whose evaluation would change its state: its target has changed (R139; log 23). -/
def State.targetChanged (s : State) (i : Fin 4) : Bool :=
  (s.line i).state.resting && decide (s.decision i ≠ (s.line i).state)

/-- Every timed event that is due. While RESTART_N is held only station time runs, so only its end of range is. -/
def State.timedEvents (s : State) : List Instr :=
  whenDue s.tb.rangeReached .endOfRangeHold ++
    if s.held then []
    else
      s.dueAtTimeBase ++ four.flatMap s.dueAtLink ++ s.objects.flatMap (fun e => e.2.dueLimit e.1 s.elapsed) ++
        four.flatMap s.dueAtLine ++ whenDue (four.any s.targetChanged) .dialTargetChange

/-- The event of the Movement Dater that takes the head of a queue (R31). -/
def State.headEvent (s : State) (i : Fin 4) : List Instr :=
  match (s.link i).queue with
  | .telegram _ :: _ => [.takeTelegramEntry i]
  | .marker _ :: _ => [.takeGapMarker i]
  | [] => []

/-- The service of the request in work (R170, R171): its code and tag name a frame that is no request. -/
def Transaction.service : Transaction → List Instr
  | .closed => []
  | .inWork (.request code frame) _ => [commandOf code ⟨frame.frame, .service⟩]
  | .inWork (.gathering frame taken) _ => [commandOf taken.code ⟨frame.frame, .service⟩]
  | .inWork (.unnamed code tag) _ => [.unknownRequestFrame (.short2 code tag .service)]
  | .pending _ => []

/-- Every event of the part's own work that may be taken now, in no order (R31, R79, R80, R100, R106, R113, R133,
R145, R170, R184). -/
def State.ownWork (s : State) : List Instr :=
  if s.held then []
  else
    four.flatMap s.headEvent ++
    whenDue (!s.answers.isEmpty) .unmatchedAnswer ++
    whenDue (!s.berthEvents.isEmpty) .berthEvent ++
    whenDue (!s.tc.announcements.isEmpty) .tcTakesTimeAnnouncement ++
    whenDue (!s.sc.announcements.isEmpty) .scTakesTimeAnnouncement ++
    whenDue s.dueActivation.isSome .activation ++
    whenDue (s.dueDeadline .overdue).isSome .overdueService ++
    whenDue (s.dueDeadline .lost).isSome .lostService ++
    whenDue (s.dueDeadline .retire).isSome .retireDeadlineExpiry ++
    whenDue s.tc.repeatOp.isSome .repeatCopyCreation ++
    whenDue s.tc.digest.isSome .digestWalkStep ++
    whenDue s.saving.isSome (.saveWriteComplete (Config.freeVerify s.freeCount)) ++
    s.sl.transaction.service

/-- One step on an empty queue (log 1): a timed event that is due comes before time goes on; else an event of the
part's own work is taken or an oscillator microsecond passes, as a free value picks. -/
def State.idle (s : State) : Host.Outcome State Fault Refusal :=
  let pick := Config.freeChoice s.freeCount
  if s.timedEvents.isEmpty then
    if s.ownWork.isEmpty then .next s.tick
    else
      match s.ownWork[pick % (s.ownWork.length + 1)]? with
      | some c => exec c s.useFree
      | none => .next s.useFree.tick
  else
    match s.timedEvents[pick % s.timedEvents.length]? with
    | some c => exec c s.useFree
    | none => .next s.useFree

end Sys2Proof.Machine
end

