-- ==== Sys2Proof/Safety.lean ====
section
/-! DEFINITION. The terms the statements use: which states admit a request, what an answered state looks like, and
the invariants of a sound state. -/

namespace Sys2Proof.Machine

/-! ### Requests -/

/-- The change requests (9.4). -/
def isChange : ReqCode → Bool
  | .defineObject | .amendObject | .retireObject | .loadPath | .amendTimingPoint | .shiftPath | .copyPath
  | .repeatPath | .armPath | .cancelPath | .retirePath => true
  | .setTime | .getTime | .getTimeStatus | .readLink | .unlockCapture | .readObject | .findObjects | .readPath
  | .findPaths | .readBerthQueue | .digestPlan | .dialSet | .readLine | .nextCondition | .ackCondition
  | .readConditions | .setWatch | .readWatch | .getStatus | .clearEditFault | .setSetting | .readSettings
  | .saveSettings => false

/-- The requests whose owners are asked in turn, each as one event (R171). -/
def asksInTurn : ReqCode → Bool
  | .readWatch | .getStatus => true
  | .setTime | .getTime | .getTimeStatus | .readLink | .unlockCapture | .defineObject | .amendObject | .retireObject
  | .readObject | .findObjects | .loadPath | .amendTimingPoint | .shiftPath | .copyPath | .repeatPath | .armPath
  | .cancelPath | .retirePath | .readPath | .findPaths | .readBerthQueue | .digestPlan | .dialSet | .readLine
  | .nextCondition | .ackCondition | .readConditions | .setWatch | .clearEditFault | .setSetting | .readSettings
  | .saveSettings => false

/-- A frame of this code that arrives now, to be served in the same event, is admitted and passes the checks of R171:
RESTART_N is not held, no transaction is open, the frame is well formed, and no long operation stands in the way of a
long request. (A frame left in work is served later as this one would be then, or its owners are asked in turn: O12.) -/
abbrev State.admits (s : State) (code : ReqCode) (f : ReqFrame) : Prop :=
  f.phase = .whole ∧ s.held = false ∧ s.sl.transaction = .closed ∧ frameOk code (collect f.toFrame) = true ∧
    (isLong code = true → s.sl.slot.busy = false)

/-- A change request is judged on its own merits: admitted, and the edit fault latch is empty (R175). -/
abbrev State.admitsEdit (s : State) (code : ReqCode) (f : ReqFrame) : Prop := s.admits code f ∧ s.sl.latch = none

/-- The state with the answer to a frame pending, and nothing else changed: the response, and the zeros shifted out
during the WRITE transfer. -/
def State.withReply (s : State) (code : ReqCode) (f : ReqFrame) (status : Status) (body : Body) : State :=
  { s with sl := { s.sl with
      transaction := .pending ⟨BitVec.ofNat 8 code.code, f.tag, status, false, body⟩
      out := List.replicate (4 + f.body.length) 0 } }

/-- A request is refused or answered with nothing but its reply: the same records, attention brought up to date. -/
abbrev State.repliesOnly (s : State) (code : ReqCode) (f : ReqFrame) (status : Status) (body : Body) : Prop :=
  exec (commandOf code f) s = .next (s.withReply code f status body).settle

/-- The state with a change request refused by a code that latches: the reply, and the edit fault latch's record
(R174). -/
def State.withRefusal (s : State) (code : ReqCode) (f : ReqFrame) (status : Status) (subject : Nat)
    (index : Option Nat) : State :=
  { s.withReply code f status .none with
    sl := { (s.withReply code f status .none).sl with latch := some ⟨status, code, f.tag, subject, index⟩ } }

/-- A change request is refused by a code that latches: the records stand, and the latch holds the refusal. -/
abbrev State.refusesEdit (s : State) (code : ReqCode) (f : ReqFrame) (status : Status) (subject : Nat)
    (index : Option Nat) : Prop :=
  exec (commandOf code f) s = .next (s.withRefusal code f status subject index).settle

/-- The state after the head entry has left a queue: the rest close up, and a pending marker takes the place that
frees at the tail (R31). -/
def State.withoutHead (s : State) (i : Fin 4) (rest : List QueueEntry) : State :=
  s.setLink i { s.link i with
    queue := rest ++ (s.link i).pendingMarker.toList.map QueueEntry.marker
    pendingMarker := none }

/-- What an evaluation of a line whose dial stands at a position with a last polarity decides: the five steps of R138
over the distances of R137, an impulse starting as R140 says. -/
def State.evaluatedLine (s : State) (i : Fin 4) (position : Nat) (last : Polarity) : LineState :=
  let positions := (s.line i).kind.positions
  let target := s.civilMs / (s.line i).kind.unit % positions
  let behind := ((target : Int) - position).emod positions
  let ahead := ((position : Int) - target).emod positions
  let window := match (s.line i).kind with
    | .minute => s.settings.holdWindow.get i
    | .halfMinute => s.settings.holdWindow.get i * 2
  let width := (s.settings.impulseWidth.get i).toNat
  if s.tb.timeValid = false then .wait .timeNotValid
  else if (s.line i).resolving = true then .impulse ⟨last, .resolving, s.tb.elapsed, width, false⟩
  else if behind = 0 then .idle
  else if 1 ≤ ahead ∧ ahead ≤ window then .wait .holdWindow
  else .impulse ⟨last.opposite, .counted, s.tb.elapsed, width, false⟩

/-- A condition set after an active cause has ended. -/
def CondSet.without (cs : CondSet) (c : Class) : CondSet := if cs.active c = true then cs.ended c else cs

/-- A condition set after a cause has begun that was not active already (R154), dated as the part stands. -/
def State.withCause (s : State) (cs : CondSet) (c : Class) (detail : Detail) : CondSet :=
  if cs.active c = true then cs
  else cs.begun c ⟨s.tb.stationUs / 1000, s.tb.discipline.quality, .observed⟩ s.tb.elapsed detail

/-- The state with another record of the Time Base, and these announcements sent to the Timetable Checker and to the Slave
Clock Driver alike (R13). -/
def State.withTimeBase (s : State) (tb : TimeBase) (sent : List Announcement) : State :=
  { s with
    tb := tb
    tc := { s.tc with announcements := s.tc.announcements ++ sent }
    sc := { s.sc with announcements := s.sc.announcements ++ sent.map ScAnnouncement.time } }

/-- The Time Base at an edge of a valid pulse with an offset, before its discipline state handles it (R6). -/
def TimeBase.captured (t : TimeBase) (o : Int) : TimeBase :=
  { t with precedingEdge := some t.elapsed, heldMsg := none, lastOffset := some o }

/-- The Time Base with a pulse recorded as the last valid one at its station time, from which the gap timer runs (R6). -/
def TimeBase.recorded (t : TimeBase) : TimeBase := { t with lastPulse := some t.stationUs, gapStart := some t.stationUs }

/-- The Time Base stepped by a pulse to its reference time (R15): TIME_STEPPED is raised with the magnitude. Its raised date
is of the time and the quality after the pulse, ACQUIRE, which is the model's choice (log 4). -/
def TimeBase.steppedBy (t : TimeBase) (o : Int) (ref : Nat) : TimeBase :=
  { t with
    stationUs := ref, residual := 0, lastStep := some (-o), timeValid := true
    conds := t.conds.raised .timeStepped ⟨ref / 1000, .holdover, .observed⟩ t.elapsed (.timeStepped (-o) .reference) }

/-- The Time Base in ACQUIRE, where both its sustained causes have ended (R22). -/
def TimeBase.acquiring (t : TimeBase) : TimeBase :=
  { t with
    discipline := .acquire
    conds := (t.conds.without .referenceLost).without .holdoverExpired }

/-- A line at the end of an impulse: at rest as given, but for a disabling and a kind change deferred over the impulse,
the disabling applied first. Both causes end at a disabling; at a kind change LINE_FAULT ends, and DIAL_UNSET begins where
the line is enabled (R147, R148, R150). -/
def State.lineAfter (s : State) (i : Fin 4) (l : Line) (rest : LineState) : Line :=
  let stopped :=
    if s.settings.lineEnable.get i = true then { l with state := rest }
    else { l with
      enabled := false, state := LineState.off, conds := (l.conds.without .lineFault).without .dialUnset }
  let kind := s.settings.dialKind.get i
  let proved := stopped.conds.without .lineFault
  if kind = stopped.kind then stopped
  else
    { stopped with
      kind := kind
      dial := stopped.dial.forget
      resolving := false
      state := if stopped.enabled = true then LineState.unset else LineState.off
      conds :=
        if stopped.enabled = true then s.withCause proved .dialUnset (.dialUnset kind .kindChange) else proved }

/-- Nothing of a line is due: no sense, completion, gap end or retry, and at rest no evaluation would move it (R139 to
R143). -/
def State.lineQuiet (s : State) (i : Fin 4) : Prop :=
  let l := s.line i
  (∀ c, l.state = .impulse c →
    s.tb.elapsed < if c.sensed = true then c.startMark + c.width else c.startMark + c.width / 2) ∧
  (∀ completion : Nat, l.state = .gap completion → (s.tb.elapsed : Int) < completion + s.settings.gap.get i) ∧
  (∀ retry, l.state = .fault retry → s.tb.elapsed < retry) ∧
  ∀ position last, l.dial = .at position last → (l.state = .idle ∨ ∃ why, l.state = .wait why) →
    s.evaluatedLine i position last = l.state

/-- Nothing of a link is due: no inter-byte or silence expiry, and no entry in its queue (R26, R31, R33). -/
def State.linkQuiet (s : State) (i : Fin 4) : Prop :=
  let l := s.link i
  (∀ bytes mark, s.settings.linkEnable.get i = true → l.framing = .receiving bytes mark →
    s.tb.elapsed ≤ mark + 20) ∧
  (∀ start : Nat, l.state = .up → l.silenceStart = some start →
    (s.tb.elapsed : Int) < start + s.settings.silenceLimit.get i * 1000) ∧
  l.queue = []

/-- No event of the part is due and none of its own work waits, so that time goes on (log 1): no expiry of the Time Base,
the links, the movements, the clearings or the lines, no entry, event, answer, announcement or request to take, no due
path, and no copy, walk or store write in progress. While RESTART_N is held only the end of range counts. -/
def State.quiet (s : State) : Prop :=
  (s.tb.rangeHold = true ∨ s.tb.stationUs < 65536 * 86400000000 - 1) ∧
  (s.held = false →
    (∀ start, s.tb.gapStart = some start → (s.tb.discipline = .acquire ∨ s.tb.discipline = .locked) →
      s.tb.stationUs < start + 3000000) ∧
    (∀ start, s.tb.discipline = .holdover → s.tb.holdoverStart = some start →
      ((s.tb.elapsed - start : Nat) : Int) < s.settings.holdoverLimit * 60000) ∧
    (∀ rx, s.tb.refRx = some rx → s.tb.elapsed ≤ rx.mark + 20) ∧
    (∀ i, s.linkQuiet i) ∧
    (∀ e ∈ s.objects,
      (∀ p m, e.2.kind = .point p → p.movement = some m → m.running = true →
        s.tb.elapsed < m.startMark + p.throwLimit) ∧
      ∀ g c, e.2.kind = .signal g → g.clearing = some c → c.running = true →
        s.tb.elapsed < c.requestMark + g.clearLimit) ∧
    (∀ i, s.lineQuiet i) ∧
    s.answers = [] ∧ s.berthEvents = [] ∧ s.tc.announcements = [] ∧ s.sc.announcements = [] ∧
    (s.tc.service = .serving → ∀ e ∈ s.tc.paths,
      (e.2.state = .loaded → s.tb.stationUs / 1000 < e.2.activation) ∧
      ∀ d, e.2.deadline = some d → ((s.tb.stationUs / 1000 : Nat) : Int) < d.time) ∧
    s.tc.repeatOp = none ∧ s.tc.digest = none ∧ s.saving = none ∧
    ∀ work lost, s.sl.transaction ≠ .inWork work lost)

/-- A timing-point entry at an offset of a body lies within its ranges: each field of Table 11-5 within those of
Table 5-2, and a route check with both its parts or neither (R89 check 2). -/
abbrev entryInRange (body : List Byte) (offset : Nat) : Prop :=
  let at_ := fun start width : Nat => field body (offset + start) width
  (1 ≤ at_ 0 2 ∧ at_ 0 2 ≤ 4095) ∧ (1 ≤ at_ 2 1 ∧ at_ 2 1 ≤ 3) ∧ at_ 3 2 ≤ 3599 ∧ at_ 5 2 ≤ 1800 ∧ at_ 7 2 ≤ 1800 ∧
    at_ 9 2 ≤ 1800 ∧
    ((at_ 11 2 = 0 ∧ at_ 13 1 = 0) ∨ (1 ≤ at_ 11 2 ∧ at_ 11 2 ≤ 4095 ∧ 1 ≤ at_ 13 1 ∧ at_ 13 1 ≤ 2))

/-! ### Invariants -/

/-- ATTN_U and ATTN_R are asserted exactly as R159 says, and neither while RESTART_N is held (R166). -/
def State.attentionSound (s : State) : Prop :=
  (s.attnU = true ↔ s.held = false ∧
    ∃ x ∈ s.conditions, x.2.state ≠ .activeAck ∧ 1 ≤ s.settings.priority x.2.cls ∧
      s.settings.line x.2.cls = .urgent) ∧
  (s.attnR = true ↔ s.held = false ∧
    ((∃ x ∈ s.conditions, x.2.state ≠ .activeAck ∧ 1 ≤ s.settings.priority x.2.cls ∧
        s.settings.line x.2.cls = .routine) ∨
      (s.settings.watchAttention = true ∧ ∃ w ∈ s.watch.val, w.changed = true) ∨
      ∃ c, s.sl.slot = .done c ∧ c.unread = true))

/-- Each arrival queue holds at most 64 entries, and a marker is pending only while its queue is full (2.4, R31 to
R33, R35). -/
abbrev Link.queueSound (l : Link) : Prop :=
  l.queue.length ≤ 64 ∧ (l.pendingMarker.isSome = true → l.queue.length = 64)

abbrev State.queuesSound (s : State) : Prop := ∀ i : Fin 4, (s.link i).queueSound

/-- A condition set is in the order of Table 8-2, so that it holds at most one condition of a class (R153). -/
abbrev CondSet.Ordered (cs : CondSet) : Prop := List.Pairwise (fun a b => a.cls.order < b.cls.order) cs

/-- The condition set of every subject is in class order (R153). -/
abbrev State.condsOrdered (s : State) : Prop :=
  s.tb.conds.Ordered ∧ (∀ i, (s.link i).conds.Ordered) ∧ (∀ i, (s.line i).conds.Ordered) ∧
    (∀ e ∈ s.objects, e.2.conds.Ordered) ∧ ∀ e ∈ s.tc.paths, e.2.conds.Ordered

/-- The two stores are in strictly rising number order, every object number is 1 to 4,095 (R43, R84), and every
condition set is in class order (R153). -/
abbrev State.storesSound (s : State) : Prop :=
  s.objects.Sorted ∧ s.tc.paths.Sorted ∧ (∀ e ∈ s.objects, 1 ≤ e.1 ∧ e.1 ≤ 4095) ∧ s.condsOrdered

/-- Trim, residual and the two counts of the Time Base lie within the ranges of Table 1-1, station time within day 0 to
65,535 (R2), a held message's fields within those of R4, and the parts carried of a unit below one (log 3). -/
abbrev TimeBase.inRange (t : TimeBase) : Prop :=
  -50000 ≤ t.trim ∧ t.trim ≤ 50000 ∧ -500000 ≤ t.residual ∧ t.residual ≤ 500000 ∧ t.good ≤ 8 ∧ t.outliers ≤ 3 ∧
    t.stationUs ≤ 65536 * 86400000000 - 1 ∧ t.fraction < 1000000000 ∧ t.slewPhase < 1000 ∧ t.oscPhase < 1000 ∧
    ∀ m, t.heldMsg = some m → m.day ≤ 65535 ∧ m.second ≤ 86399

/-- The timing points of all stored paths (R86). -/
def State.storedPoints (s : State) : Nat := (s.tc.paths.map fun e => e.2.points.length).sum

/-- What an accepted REPEAT PATH still holds: its template stored and marked, its numbers free of paths, and its
reserved entries those of its remaining copies (R99, R100). -/
def State.repeatSound (s : State) : Prop :=
  match s.tc.repeatOp with
  | none => s.tc.poolReserved = 0
  | some op =>
    1 ≤ op.next ∧ op.next ≤ op.count ∧
      (∃ p, s.path op.template = some p ∧ p.templateInUse = true ∧
        s.tc.poolReserved = (op.count + 1 - op.next) * p.points.length) ∧
      (∀ e ∈ s.tc.paths, op.first + (op.next - 1) ≤ e.1 → op.first + op.count ≤ e.1)

/-- A long operation in progress holds the slot in flight under its own kind (R172, R173). -/
def State.slotSound (s : State) : Prop :=
  (s.tc.repeatOp.isSome = true → ∃ tag date, s.sl.slot = .inFlight .repeatPath tag date) ∧
    (s.tc.digest.isSome = true → ∃ tag date, s.sl.slot = .inFlight .digestPlan tag date) ∧
    (s.saving.isSome = true → ∃ tag date, s.sl.slot = .inFlight .saveSettings tag date)

/-- The pool's account (R86): free, reserved and stored entries come to 16,384. -/
def State.poolSound (s : State) : Prop :=
  s.tc.paths.Sorted ∧ s.tc.poolFree + s.tc.poolReserved + s.storedPoints = 16384 ∧ s.repeatSound ∧ s.slotSound

end Sys2Proof.Machine
end

