-- ==== Sys2Proof/Certificates/Slice0/Obligations.lean ====
section
/-! DEFINITION. The statements for the provers. -/

open Sys2Proof Sys2Proof.Machine

/-! ### The machine -/

/-- One step takes the command at the front of the queue and runs it with the queue's rest, for every command. -/
def Obligations.StepRunsTheFrontCommand : Prop :=
  ∀ (c : Instr) (rest : List Instr) (s : State), s.pending = c :: rest →
    step s = exec c { s with pending := rest }

/-- No step stops the part: every state has a next one. No rule of the manual stops it. -/
def Obligations.NoStepStops : Prop := ∀ s : State, ∃ t, step s = .next t

/-- Every step leaves ATTN_U and ATTN_R asserted exactly as R159 says (and neither while RESTART_N is held). -/
def Obligations.AttentionLinesStaySound : Prop :=
  ∀ s t : State, s.attentionSound → step s = .next t → t.attentionSound

/-- Every step keeps every working setting within its range, and within theirs these fields of the Time Base (Table 1-1):
trim, residual, the two counts, station time within its days, and the day and second of a held message. The three parts of
a unit carried, counted from 0, are the model's (log 3). -/
def Obligations.SettingsStayInRange : Prop :=
  (∀ s t : State, s.settings.inRange = true → step s = .next t → t.settings.inRange = true) ∧
  ∀ s t : State, s.tb.inRange → step s = .next t → t.tb.inRange

/-- Every step keeps each arrival queue within its 64 places, with a marker pending only at a full queue. -/
def Obligations.ArrivalQueuesStayBounded : Prop :=
  ∀ s t : State, s.queuesSound → step s = .next t → t.queuesSound

/-- Every step keeps the Object Table and the Path Store in rising number order, objects numbered 1 to 4,095, and every
subject's condition set in rising class order, so that it holds at most one condition of each class (R153). -/
def Obligations.StoresStayOrdered : Prop :=
  ∀ s t : State, s.storesSound → step s = .next t → t.storesSound

/-- Every step keeps the account of the timing-point pool: free, reserved and stored come to 16,384. -/
def Obligations.PoolStaysAccounted : Prop :=
  ∀ s t : State, s.poolSound → step s = .next t → t.poolSound

/-- The state after reset has every invariant above, and both attention lines are released. That a new part's copy is
BLANK is read from the manual (log 5). -/
def Obligations.ResetIsSound : Prop :=
  State.reset.attentionSound ∧ State.reset.attnU = false ∧ State.reset.attnR = false ∧
    State.reset.settings.inRange = true ∧ State.reset.tb.inRange ∧ State.reset.queuesSound ∧ State.reset.storesSound ∧
    State.reset.poolSound

/-- The elapsed count never decreases, but for a power-on at the front of the queue. -/
def Obligations.ElapsedCountNeverDecreases : Prop :=
  ∀ s t : State, s.pending.head? ≠ some .powerOn → step s = .next t → s.tb.elapsed ≤ t.tb.elapsed

/-- A record's state-since date never decreases while the record exists: over every step, a record that exists
before it and after it has a state-since date no earlier than it had. -/
def Obligations.StateSinceNeverDecreases : Prop :=
  ∀ (s t : State) (n : Nat) (r r' : ObjectRec), step s = .next t → s.object n = some r → t.object n = some r' →
    r.since.ms ≤ r'.since.ms

/-! ### Taking requests (chapter 9) -/

/-- The checks of R171 that the Service Link makes itself: a frame whose length or presence bytes are wrong is answered
BAD_REQUEST, and a long request that meets a long operation in flight BUSY; neither changes a record. The length is right
when the body's length field is at most 1,024, is the number of body bytes shifted in, and is the length of the code's
body (R171). (A frame served
later than its admission: OneTransactionAtATime.) -/
def Obligations.ChecksComeBeforeTheOwner : Prop :=
  (∀ (code : ReqCode) (f : Frame), frameOk code (collect f) = true ↔
    f.len.toNat ≤ 1024 ∧ f.len.toNat = f.body.length ∧ f.body.length = bodyLength f.body code ∧
      presenceOk f.body code = true) ∧
  ∀ (code : ReqCode) (f : ReqFrame) (s : State), f.phase = .whole → s.held = false → s.sl.transaction = .closed →
    (frameOk code (collect f.toFrame) = false → s.repliesOnly code f .badRequest .none) ∧
    (frameOk code (collect f.toFrame) = true → isLong code = true → (∃ kind tag date, s.sl.slot = .inFlight kind tag date) →
      s.repliesOnly code f .busy .none)

/-- One transaction at a time (R168, R170, R171, R180). A frame admitted and not served in the same event stays in work,
and changes nothing else. While a request is in work, or its response pending, every WRITE frame (too short for its
header, or of an unknown code, among them) is discarded unjudged: LOST_REQUEST is recorded, or set in that response. The
frame in work is served by the part's own work, as a frame served at once would be at that moment, with LOST_REQUEST if
recorded and no byte shifted out; a READ WATCH or GET STATUS that passes the checks by one service for each owner
(WatchSlotsAreSetAndRead, StatusLatchAndCaptureAreServed). At most 1,024 body bytes are kept; the rest count for the length
and are discarded. While RESTART_N is held, transfers have no effect. That admission and service may be one event or more,
and that a service of another frame than the one in work does nothing, are the model's readings (log 6, log 2). -/
def Obligations.OneTransactionAtATime : Prop :=
  (∀ f : Frame, collect f = ⟨f.tag, f.len, f.body.take 1024, f.body.length⟩) ∧
  (∀ s : State, s.held = false →
    let left := fun (x : Transaction) (count : Nat) =>
      Host.Outcome.next ({ s with sl := { s.sl with transaction := x, out := List.replicate count 0 } }).settle
    let discards := fun x : Transaction =>
      (∀ code f, f.phase ≠ .service → exec (commandOf code f) s = left x (4 + f.body.length)) ∧
      (∀ code phase, phase ≠ .service → exec (.unknownRequestFrame (.short1 code phase)) s = left x 1) ∧
      (∀ code tag phase, phase ≠ .service → exec (.unknownRequestFrame (.short2 code tag phase)) s = left x 2) ∧
      (∀ code tag b phase, phase ≠ .service →
        exec (.unknownRequestFrame (.short3 code tag b phase)) s = left x 3) ∧
      ∀ code f, f.phase ≠ .service →
        exec (.unknownRequestFrame (.unknownCode code f)) s = left x (4 + f.body.length)
    (∀ r, s.sl.transaction = .pending r → discards (.pending { r with lostRequest := true })) ∧
    (∀ work lost, s.sl.transaction = .inWork work lost → discards (.inWork work true)) ∧
    (s.sl.transaction = .closed →
      (∀ code f, f.phase = .write →
        exec (commandOf code f) s = left (.inWork (.request code (collect f.toFrame)) false) (4 + f.body.length)) ∧
      (∀ code, exec (.unknownRequestFrame (.short1 code .write)) s = left (.inWork (.unnamed code 0) false) 1) ∧
      (∀ code tag, exec (.unknownRequestFrame (.short2 code tag .write)) s =
        left (.inWork (.unnamed code tag) false) 2) ∧
      (∀ code tag b, exec (.unknownRequestFrame (.short3 code tag b .write)) s =
        left (.inWork (.unnamed code tag) false) 3) ∧
      ∀ code f, f.phase = .write → exec (.unknownRequestFrame (.unknownCode code f)) s =
        left (.inWork (.unnamed code.val f.tag) false) (4 + f.body.length)) ∧
    (∀ code f lost, s.sl.transaction = .inWork (.request code (collect f.toFrame)) lost → f.phase = .service →
      (∃ g : ReqFrame, g.phase = .service ∧ collect g.toFrame = collect f.toFrame ∧ commandOf code g ∈ s.ownWork) ∧
      (asksInTurn code = false ∨ frameOk code (collect f.toFrame) = false →
      ∃ t r, exec (commandOf code (f.at .whole)) { s with sl := { s.sl with transaction := .closed } } = .next t ∧
        t.sl.transaction = .pending r ∧
        exec (commandOf code f) s = .next { t with sl := { t.sl with
          transaction := .pending { r with lostRequest := lost }, out := s.sl.out } })) ∧
    (∀ (f : ReqFrame) (taken : Gathered) (lost : Bool),
      s.sl.transaction = .inWork (.gathering (collect f.toFrame) taken) lost →
      ∃ g : ReqFrame, g.phase = .service ∧ collect g.toFrame = collect f.toFrame ∧
        commandOf taken.code g ∈ s.ownWork) ∧
    (∀ code tag lost, s.sl.transaction = .inWork (.unnamed code tag) lost →
      .unknownRequestFrame (.short2 code tag .service) ∈ s.ownWork ∧
      let served := fun x : OtherTransfer =>
        exec (.unknownRequestFrame x) s = .next ({ s with sl := { s.sl with
          transaction := .pending ⟨code, tag, .badRequest, lost, .none⟩ } }).settle
      served (.short2 code tag .service) ∧ (∀ b, served (.short3 code tag b .service)) ∧
        (tag = 0 → served (.short1 code .service)) ∧
        ∀ c f, f.phase = .service → c.val = code → f.tag = tag → served (.unknownCode c f)) ∧
    (∀ code tag, (∀ lost, s.sl.transaction ≠ .inWork (.unnamed code tag) lost) →
      let unserved := fun x : OtherTransfer => exec (.unknownRequestFrame x) s = .next s.settle
      unserved (.short2 code tag .service) ∧ (∀ b, unserved (.short3 code tag b .service)) ∧
        (tag = 0 → unserved (.short1 code .service)) ∧
        ∀ c f, f.phase = .service → c.val = code → f.tag = tag → unserved (.unknownCode c f)) ∧
    ∀ code f, f.phase = .service → (∀ lost, s.sl.transaction ≠ .inWork (.request code (collect f.toFrame)) lost) →
      (∀ g lost, g.code = code → s.sl.transaction ≠ .inWork (.gathering (collect f.toFrame) g) lost) →
      exec (commandOf code f) s = .next s.settle) ∧
  ∀ s : State, s.held = true →
    (∀ (code : ReqCode) (f : ReqFrame), exec (commandOf code f) s = .next s.settle) ∧
    (∀ n : Nat, exec (.readResponse n) s = .next s.settle) ∧
    (∀ x : OtherTransfer, exec (.unknownRequestFrame x) s = .next s.settle)

/-- The edit fault latch (R174, R175): while it is set, every change request that passes the checks of R171 is refused
EDIT_BLOCKED, no record altered and the latch unchanged. With it empty, a change request sets it exactly when it is
refused with a code that latches, and it then holds that code, the request's code and its tag. -/
def Obligations.EditFaultLatchBlocksEdits : Prop :=
  ∀ (code : ReqCode) (f : ReqFrame) (s : State), isChange code = true →
    (s.admits code f → s.sl.latch.isSome = true → s.repliesOnly code f .editBlocked .none) ∧
    (s.admitsEdit code f → ∃ t r, exec (commandOf code f) s = .next t ∧
      t.sl.transaction = .pending r ∧ r.code = BitVec.ofNat 8 code.code ∧ r.tag = f.tag ∧
      (t.sl.latch = none ∨
        ∃ subject index, t.sl.latch = some ⟨r.status, code, f.tag, subject, index⟩ ∧ r.body = .none) ∧
      (t.sl.latch.isSome = true ↔ r.status ∈ [Status.numberInUse, .badObject, .outOfRange, .order, .poolFull,
        .storeFull, .notWhileRunning, .inUse, .stateConflict, .badHeadcode]))

/-- A READ transfer shifts out the pending response from its first byte, then zeros; only a complete read closes the
transaction. With none pending it shifts out zeros. The response frame is code, tag, status code, flags and body length,
then the body; an absent field is zero over its width behind its presence mark, and a list stands behind its count
(R187). The model's readings (log 29), where chapter 11 gives no layout: the fields in the order of their rule, packed;
the count before each list in 1 byte and the next start number in 2; the 8 bytes of the latch record; the 17 and 16 bytes
of the long-operation slot's fields before its result, and the 1, 9 and 2 bytes of the results. That the fields which the
completion of an operation in flight will fill are zero over the width of its kind's result is the model's choice (log
7). -/
def Obligations.ReadTransferShiftsTheResponse : Prop :=
  let slots := fun (kind : LongOp) (result : LongResult) (width : Nat) =>
    ∀ (tag : Byte) (accepted : Date) (c : Completion), c.kind = kind → c.result = result →
      result.bytes.length = width ∧ (Slot.done c).bytes.length = 17 + (16 + width) ∧
        ∃ held, (Slot.inFlight kind tag accepted).bytes = held ++ List.replicate (16 + width) 0 ∧ held.length = 17
  (∀ (n : Nat) (s : State), s.held = false →
    (∀ r : Response, s.sl.transaction = .pending r →
      exec (.readResponse n) s = .next ({ s with sl := { s.sl with
        out := r.bytes.take n ++ List.replicate (n - r.bytes.length) 0
        transaction := if r.bytes.length ≤ n then .closed else .pending r } }).settle) ∧
    (s.sl.transaction = .closed ∨ (∃ work lost, s.sl.transaction = .inWork work lost) →
      exec (.readResponse n) s = .next ({ s with sl := { s.sl with out := List.replicate n 0 } }).settle)) ∧
  (∀ r : Response,
    r.bytes = [r.code, r.tag, BitVec.ofNat 8 r.status.code, if r.lostRequest then 1 else 0,
      BitVec.ofNat 8 (r.body.bytes.length / 256), BitVec.ofNat 8 r.body.bytes.length] ++ r.body.bytes) ∧
  Body.none.bytes = [] ∧
  (∀ width, optionalBytes width none = List.replicate (width + 1) 0) ∧
  (∀ d : Date, (Body.date d).bytes.length = 14) ∧ (∀ q : StationQ, q.bytes.length = 7) ∧
  (∀ o : ObjectSummary, (Body.summary (some (.object o))).bytes.length = 33) ∧
  (∀ p : PathSummary, (Body.summary (some (.path p))).bytes.length = 18) ∧
  (∀ c : ConditionView, c.bytes.length = 44) ∧
  (∀ x : TimingPoint × Nat, ∃ outcome, pointBytes x = BitVec.ofNat 8 x.2 :: x.1.plan.bytes ++ outcome ∧
    x.1.plan.bytes.length = 14 ∧ outcome.length = 20 ∧ (x.1.outcome = none → outcome = List.replicate 20 0)) ∧
  (∀ found next, (Body.objects found next).bytes =
    BitVec.ofNat 8 found.length :: found.flatMap ObjectSummary.bytes ++ toBe 2 next) ∧
  (∀ found next, (Body.paths found next).bytes =
    BitVec.ofNat 8 found.length :: found.flatMap PathSummary.bytes ++ toBe 2 next) ∧
  (∀ found, (Body.conditions found).bytes = BitVec.ofNat 8 found.length :: found.flatMap ConditionView.bytes) ∧
  (∀ latch : Option LatchRecord, (Body.latch latch).bytes.length = 8 ∧
    (latch = none → (Body.latch latch).bytes = List.replicate 8 0)) ∧
  (∀ n, slots .repeatPath (.copies n) 1) ∧
  (∀ crc paths points disturbed, slots .digestPlan (.digest crc paths points disturbed) 9) ∧
  (∀ check, slots .saveSettings (.save check) 2) ∧
  ∀ v : StatusView, (Body.status v).bytes.take 5 =
    [BitVec.ofNat 8 (v.vendor.toNat / 256), BitVec.ofNat 8 v.vendor.toNat, BitVec.ofNat 8 (v.part.toNat / 256),
      BitVec.ofNat 8 v.part.toNat, v.issue]

/-- A transfer that names no request: too short for its header, or of an unknown code, it is answered BAD_REQUEST with
its code and tag as received (a missing byte 0); another command byte shifts out zeros and does nothing. That a cut or
empty transfer leaves the last bytes shifted out is the model's choice (log 30). (Frames answered later than their
admission, or discarded: OneTransactionAtATime.) -/
def Obligations.UnknownFrameIsBadRequest : Prop :=
  ∀ s : State, s.held = false →
    let answered := fun (code tag : Byte) (count : Nat) =>
      ({ s with sl := { s.sl with
          transaction := .pending ⟨code, tag, .badRequest, false, .none⟩
          out := List.replicate count 0 } }).settle
    (s.sl.transaction = .closed →
      (∀ code, exec (.unknownRequestFrame (.short1 code .whole)) s = .next (answered code 0 1)) ∧
      (∀ code tag, exec (.unknownRequestFrame (.short2 code tag .whole)) s = .next (answered code tag 2)) ∧
      (∀ code tag b, exec (.unknownRequestFrame (.short3 code tag b .whole)) s = .next (answered code tag 3)) ∧
      ∀ code f, f.phase = .whole → exec (.unknownRequestFrame (.unknownCode code f)) s =
        .next (answered code.val f.tag (4 + f.body.length))) ∧
    (∀ command n, exec (.unknownRequestFrame (.otherCommand command n)) s =
      .next ({ s with sl := { s.sl with out := List.replicate n 0 } }).settle) ∧
    exec (.unknownRequestFrame .incomplete) s = .next s.settle ∧
    exec (.unknownRequestFrame .emptyWrite) s = .next s.settle

/-- The readings of the Time Base, a link, a line and the settings answer OK with the fields their rules list, as the
records stand, and change nothing. Civil time (R18) is the millisecond of day with the boundary hour and the civil
offset, modulo a day; a line's target, behind and ahead are those of R137, absent while the position is UNSET, and the
time left is that of the running timer. That READ LINE gives the width setting is the model's reading (log 31). -/
def Obligations.ReadingsAnswerAndChangeNothing : Prop :=
  ∀ (f : ReqFrame) (s : State),
    (s.admits .getTime f → s.repliesOnly .getTime f .ok
      (.time (s.tb.stationUs / 1000) s.tb.discipline.quality s.tb.timeValid s.tb.elapsed s.civilMs)) ∧
    (s.admits .getTimeStatus f → s.repliesOnly .getTimeStatus f .ok (.timeStatus
      ⟨s.tb.discipline, s.tb.good, s.tb.outliers, s.tb.trim, s.tb.residual, s.tb.lastOffset, s.tb.lastStep,
        s.tb.lastPulse.map (· / 1000),
        (match s.tb.holdoverStart with | some start => s.tb.elapsed - start | none => 0),
        s.tb.timeValid, s.tb.rangeHold⟩)) ∧
    (s.admits .readSettings f →
      s.repliesOnly .readSettings f .ok (.settings s.settings s.source s.copy)) ∧
    (∀ i : Fin 4, s.admits .readLink f → (byteAt f.body 0).toNat = i.val →
      s.repliesOnly .readLink f .ok (.link
        ⟨s.settings.linkEnable.get i, (s.link i).state, (s.link i).queue.length, (s.link i).pendingMarker,
          (s.link i).lastValid, (s.link i).lastAccepted, (s.link i).capture, (s.link i).further⟩)) ∧
    (s.admits .readLink f → 4 ≤ (byteAt f.body 0).toNat → s.repliesOnly .readLink f .outOfRange .none) ∧
    (s.admits .readLine f → 4 ≤ (byteAt f.body 0).toNat → s.repliesOnly .readLine f .outOfRange .none) ∧
    (∀ i : Fin 4, s.admits .readLine f → (byteAt f.body 0).toNat = i.val →
      let l := s.line i
      let (positions, dialUnit) : Nat × Nat := match l.kind with
        | .minute => (720, 60000)
        | .halfMinute => (1440, 30000)
      let target := s.civilMs / dialUnit % positions
      let behind := fun position : Nat => (((target : Int) - position).emod positions).toNat
      let ahead := fun position : Nat => (((position : Int) - target).emod positions).toNat
      s.repliesOnly .readLine f .ok (.line {
        enabled := l.enabled, kind := l.kind, state := l.state, dial := l.dial, resolving := l.resolving
        lastSense := l.lastSense, width := s.settings.impulseWidth.get i, gap := s.settings.gap.get i
        holdWindow := s.settings.holdWindow.get i, civilMs := s.civilMs
        timerLeft := match l.state with
          | .impulse c => some (c.startMark + c.width - s.tb.elapsed)
          | .gap completion => some (completion + (s.settings.gap.get i).toNat - s.tb.elapsed)
          | .fault retry => some (retry - s.tb.elapsed)
          | .off | .unset | .idle | .wait _ => none
        disablingDeferred := match l.state with
          | .impulse _ => !s.settings.lineEnable.get i
          | .off | .unset | .idle | .wait _ | .gap _ | .fault _ => false
        kindDeferred := match l.state with
          | .impulse _ => decide (s.settings.dialKind.get i ≠ l.kind)
          | .off | .unset | .idle | .wait _ | .gap _ | .fault _ => false
        target := match l.dial with
          | .at position _ => some (target, behind position, ahead position)
          | .unset _ => none
          | .unknown => none }) ∧
      ∀ position, position < positions → behind position < positions ∧ ahead position < positions ∧
        (position + behind position) % positions = target ∧ (target + ahead position) % positions = position) ∧
    s.civilMs < 86400000 ∧
    ∃ k : Int, (s.civilMs : Int) = ((s.tb.stationUs / 1000 % 86400000 : Nat) : Int) +
      s.settings.boundaryHour * 3600000 + s.settings.civilOffset * 60000 - k * 86400000

/-! ### Station time (chapter 1) -/

/-- Trimmed time and slewing (R1, R3, R14). Over any number of oscillator microseconds, with the fraction carried,
trimmed time runs by 1,000,000,000 + trim µs for every 1,000,000,000 µs; for each millisecond of it that completes,
station time advances one microsecond less while the residual is positive, one more while it is negative, and the
residual moves one microsecond toward 0, until it is 0; the elapsed count advances by one for each oscillator
millisecond that completes. Under the end-of-range hold station time stands still (R2). A step on an empty queue with
nothing due is one such microsecond, which is the model's choice (log 1); the unit of the fraction, and that the
microsecond of slew falls at the end of the trimmed millisecond, are the model's (log 3). -/
def Obligations.TrimmedRateIsExact : Prop :=
  (∀ (k : Nat) (t : TimeBase), t.rangeHold = false → -50000 ≤ t.trim → t.trim ≤ 50000 → t.fraction < 1000000000 →
    t.slewPhase < 1000 → t.oscPhase < 1000 → (Nat.repeat TimeBase.tick k t).stationUs < Config.lastUs →
    let u := Nat.repeat TimeBase.tick k t
    let total := k * (1000000000 + t.trim).toNat + t.fraction
    let run := total / 1000000000
    let moved := min ((t.slewPhase + run) / 1000) t.residual.natAbs
    u = { t with
      stationUs := u.stationUs, residual := u.residual
      elapsed := t.elapsed + (t.oscPhase + k) / 1000, oscPhase := (t.oscPhase + k) % 1000
      fraction := total % 1000000000, slewPhase := (t.slewPhase + run) % 1000 } ∧
    (0 ≤ t.residual → u.residual = t.residual - moved ∧ (u.stationUs : Int) = t.stationUs + run - moved) ∧
    (t.residual < 0 → u.residual = t.residual + moved ∧ u.stationUs = t.stationUs + run + moved)) ∧
  (∀ (k : Nat) (t : TimeBase), t.rangeHold = true → t.oscPhase < 1000 → Nat.repeat TimeBase.tick k t =
    { t with elapsed := t.elapsed + (t.oscPhase + k) / 1000, oscPhase := (t.oscPhase + k) % 1000 }) ∧
  ∀ s : State, s.pending = [] → s.quiet → step s = .next { s with tb := s.tb.tick }

/-- A REF_PPS edge whose pulse is not valid records its mark, consumes the held message, and changes nothing further. A
valid pulse in FREE steps station time to its reference time, whatever the offset, enters ACQUIRE with a good-count of 1,
sets the time-valid flag, and announces step and quality as one announcement. -/
def Obligations.PulseInvalidOrInFree : Prop :=
  (∀ s : State, s.held = false → (∀ m, s.tb.heldMsg = some m → m.valid = false) →
    exec .refPpsEdge s =
      .next ({ s with tb := { s.tb with precedingEdge := some s.tb.elapsed, heldMsg := none } }).settle) ∧
  ∀ (s : State) (m : RefMsg), s.held = false → s.tb.discipline = .free → s.tb.rangeHold = false →
    s.tb.heldMsg = some m → m.valid = true →
    ∃ t, exec .refPpsEdge s = .next t ∧
      let ref := m.day * 86400000000 + m.second * 1000000
      let a : Announcement := ⟨.holdover, ref, some ⟨s.tb.stationUs, ref, (ref : Int) - s.tb.stationUs⟩⟩
      t = { s with
        tb := { s.tb with
          stationUs := ref, discipline := .acquire, good := 1, outliers := 0, residual := 0, timeValid := true
          lastOffset := some ((s.tb.stationUs : Int) - ref), lastStep := some ((ref : Int) - s.tb.stationUs)
          lastPulse := some ref, gapStart := some ref, heldMsg := none, precedingEdge := some s.tb.elapsed
          conds := t.tb.conds }
        tc := { s.tc with announcements := s.tc.announcements ++ [a] }
        sc := { s.sc with announcements := s.sc.announcements ++ [ScAnnouncement.time a] }
        attnU := t.attnU, attnR := t.attnR } ∧
      ((t.tb.conds.find .timeStepped).map fun c => (c.state, c.detail)) =
        some (.clearUnack, .timeStepped ((ref : Int) - s.tb.stationUs) .reference)

/-- A valid pulse in ACQUIRE (R8): within the lock band it sets the residual and counts up, the eighth good pulse
entering LOCKED; within the step threshold it sets the residual and counts from 0; beyond it, it steps, and TIME_STEPPED
is raised (R15, R22). A step and the change of quality are announced to both receivers, nothing else (R13). The offset and
the edge are recorded, the gap timer starts again (R6), and the rest stands, the trim among it. That the raised date of
TIME_STEPPED is of the time after the pulse is the model's choice (log 4). -/
def Obligations.PulseInAcquire : Prop :=
  ∀ (s : State) (m : RefMsg), s.held = false → s.tb.discipline = .acquire → s.tb.rangeHold = false →
    s.tb.heldMsg = some m → m.valid = true →
    let ref := m.day * 86400000000 + m.second * 1000000
    let o : Int := (s.tb.stationUs : Int) - ref
    let slewed : TimeBase := { (s.tb.captured o).recorded with residual := o }
    let answers := fun (tb : TimeBase) (sent : List Announcement) =>
      exec .refPpsEdge s = .next (s.withTimeBase tb sent).settle
    (o.natAbs ≤ 2000 → s.tb.good < 7 → answers { slewed.acquiring with good := s.tb.good + 1 } []) ∧
    (o.natAbs ≤ 2000 → 7 ≤ s.tb.good → answers { slewed with discipline := .locked, good := 8, outliers := 0 }
      [⟨.locked, s.tb.stationUs, none⟩]) ∧
    (2000 < o.natAbs → o.natAbs ≤ 500000 → answers { slewed.acquiring with good := 0 } []) ∧
    (500000 < o.natAbs → answers { (((s.tb.captured o).steppedBy o ref).recorded).acquiring with good := 0 }
      [⟨.holdover, ref, some ⟨s.tb.stationUs, ref, -o⟩⟩])

/-- A valid pulse in LOCKED (R9): within the step threshold it sets the residual, updates the trim by R16 and clears the
outlier count; beyond it, it is an outlier, and the third in a row steps to ACQUIRE with TIME_STEPPED raised, which alone is
announced, to both receivers (R13, R15, R22). The offset and the edge are recorded, the gap timer starts again (R6), and the
rest stands. That the raised date of TIME_STEPPED is of the time after the pulse is the model's choice (log 4). -/
def Obligations.PulseInLocked : Prop :=
  ∀ (s : State) (m : RefMsg), s.held = false → s.tb.discipline = .locked → s.tb.rangeHold = false →
    s.tb.heldMsg = some m → m.valid = true →
    let ref := m.day * 86400000000 + m.second * 1000000
    let o : Int := (s.tb.stationUs : Int) - ref
    let noted := (s.tb.captured o).recorded
    let answers := fun (tb : TimeBase) (sent : List Announcement) =>
      exec .refPpsEdge s = .next (s.withTimeBase tb sent).settle
    (o.natAbs ≤ 500000 → answers { noted with
      residual := o, outliers := 0, trim := max (-50000) (min 50000 (s.tb.trim - (o * 1000).tdiv 16)) } []) ∧
    (500000 < o.natAbs → s.tb.outliers < 2 → answers { noted with outliers := s.tb.outliers + 1 } []) ∧
    (500000 < o.natAbs → 2 ≤ s.tb.outliers →
      answers { (((s.tb.captured o).steppedBy o ref).recorded).acquiring with good := 0, outliers := 0 }
        [⟨.holdover, ref, some ⟨s.tb.stationUs, ref, -o⟩⟩])

/-- A valid pulse in HOLDOVER or in DRIFT without the end-of-range hold (R10) stops the holdover timer and enters
ACQUIRE: stepping beyond the step threshold, with TIME_STEPPED raised, slewing within it; a step or a change of quality is
announced, once to each receiver (R13, R15). Both sustained causes of the Time Base end (R22). The offset and the edge are
recorded, the gap timer starts (R6), and the rest stands. In DRIFT with the hold on, the pulse is an outlier, whatever its
offset. That the raised date of TIME_STEPPED is of the time after the pulse is the model's choice (log 4). -/
def Obligations.PulseEndsHoldoverAndDrift : Prop :=
  ∀ (s : State) (m : RefMsg), s.held = false → s.tb.heldMsg = some m → m.valid = true →
    let ref := m.day * 86400000000 + m.second * 1000000
    let o : Int := (s.tb.stationUs : Int) - ref
    let slewed : TimeBase := { (s.tb.captured o).recorded.acquiring with residual := o, holdoverStart := none }
    let stepped : TimeBase :=
      { (((s.tb.captured o).steppedBy o ref).recorded).acquiring with good := 0, holdoverStart := none }
    let step : Announcement := ⟨.holdover, ref, some ⟨s.tb.stationUs, ref, -o⟩⟩
    let answers := fun (tb : TimeBase) (sent : List Announcement) =>
      exec .refPpsEdge s = .next (s.withTimeBase tb sent).settle
    (s.tb.discipline = .holdover → s.tb.rangeHold = false →
      (o.natAbs ≤ 2000 → answers { slewed with good := 1 } []) ∧
      (2000 < o.natAbs → o.natAbs ≤ 500000 → answers { slewed with good := 0 } []) ∧
      (500000 < o.natAbs → answers stepped [step])) ∧
    (s.tb.discipline = .drift → s.tb.rangeHold = false →
      (o.natAbs ≤ 500000 →
        answers { slewed with good := 0, outliers := 0 } [⟨.holdover, s.tb.stationUs, none⟩]) ∧
      (500000 < o.natAbs → answers { stepped with outliers := 0 } [step])) ∧
    (s.tb.discipline = .drift → s.tb.rangeHold = true → exec .refPpsEdge s = .next ({ s with tb := { s.tb with
      precedingEdge := some s.tb.elapsed, heldMsg := none, lastOffset := some o, outliers := min 3 (s.tb.outliers + 1)
      lastPulse := some s.tb.stationUs, gapStart := none } }).settle)

/-- The timers of the Time Base. The reference gap (R11): 3 s of station time after the last valid pulse, in ACQUIRE or
LOCKED, it enters HOLDOVER, starts its holdover timer, and REFERENCE_LOST is active; leaving LOCKED is announced, leaving
ACQUIRE not. The holdover limit (R12): it enters DRIFT, its timer runs on, UNSYNC is announced and HOLDOVER_EXPIRED is
active. The end of range (R2): the hold comes on at the last microsecond of day 65,535, the residual is 0, the gap timer
stops and it enters DRIFT; UNSYNC is announced if the quality was not UNSYNC before. A cause that begins carries the
station time of the last valid pulse, or the limit in force, and every other condition stands (R22); that its raised date
is graded by the new discipline state is the model's choice (log 4), and that an expiry which is not due does nothing its
reading (log 2). While RESTART_N is held (R24) the end of range comes and is announced as ever; that its causes then wait for
the release is the model's choice (log 9). -/
def Obligations.TimeBaseTimersExpire : Prop :=
  let lost := fun s : State => Detail.referenceLost (s.tb.lastPulse.map (· / 1000))
  let expired := fun s : State => Detail.holdoverExpired s.settings.holdoverLimit.toNat
  (∀ (s : State) (start : Nat), s.held = false → (s.tb.discipline = .acquire ∨ s.tb.discipline = .locked) →
    s.tb.gapStart = some start → start + 3000000 ≤ s.tb.stationUs →
    ∃ t, exec .referenceGapExpiry s = .next t ∧
      t = { s with
        tb := { s.tb with
          discipline := .holdover, good := 0, outliers := 0, holdoverStart := some s.tb.elapsed, gapStart := none
          conds := t.tb.conds }
        tc := { s.tc with announcements := t.tc.announcements }
        sc := { s.sc with announcements := t.sc.announcements }, attnU := t.attnU, attnR := t.attnR } ∧
      t.tb.conds.active .referenceLost = true ∧
      t.tb.conds = t.withCause s.tb.conds .referenceLost (lost s) ∧
      (s.tb.discipline = .locked →
        t.tc.announcements = s.tc.announcements ++ [⟨.holdover, s.tb.stationUs, none⟩] ∧
        t.sc.announcements = s.sc.announcements ++ [ScAnnouncement.time ⟨.holdover, s.tb.stationUs, none⟩]) ∧
      (s.tb.discipline = .acquire →
        t.tc.announcements = s.tc.announcements ∧ t.sc.announcements = s.sc.announcements)) ∧
  (∀ (s : State) (start : Nat), s.held = false → s.tb.discipline = .holdover → s.tb.holdoverStart = some start →
    s.settings.holdoverLimit * 60000 ≤ ((s.tb.elapsed - start : Nat) : Int) →
    ∃ t, exec .holdoverLimitExpiry s = .next t ∧
      t = { s with
        tb := { s.tb with discipline := .drift, conds := t.tb.conds }
        tc := { s.tc with announcements := s.tc.announcements ++ [⟨.unsync, s.tb.stationUs, none⟩] }
        sc := { s.sc with announcements := s.sc.announcements ++ [ScAnnouncement.time ⟨.unsync, s.tb.stationUs, none⟩] }
        attnU := t.attnU, attnR := t.attnR } ∧
      t.tb.conds.active .holdoverExpired = true ∧
      t.tb.conds = t.withCause s.tb.conds .holdoverExpired (expired s)) ∧
  (∀ s : State, s.held = false →
    (¬ (∃ start, (s.tb.discipline = .acquire ∨ s.tb.discipline = .locked) ∧ s.tb.gapStart = some start ∧
      start + 3000000 ≤ s.tb.stationUs) → exec .referenceGapExpiry s = .next s.settle) ∧
    (¬ (∃ start, s.tb.discipline = .holdover ∧ s.tb.holdoverStart = some start ∧
      s.settings.holdoverLimit * 60000 ≤ ((s.tb.elapsed - start : Nat) : Int)) →
      exec .holdoverLimitExpiry s = .next s.settle) ∧
    (s.tb.rangeHold = true ∨ s.tb.stationUs < 65536 * 86400000000 - 1 →
      exec .endOfRangeHold s = .next s.settle)) ∧
  (∀ s : State, s.held = true →
    exec .referenceGapExpiry s = .next s.settle ∧ exec .holdoverLimitExpiry s = .next s.settle ∧
    (s.tb.rangeHold = true ∨ s.tb.stationUs < 65536 * 86400000000 - 1 → exec .endOfRangeHold s = .next s.settle) ∧
    (s.tb.rangeHold = false → 65536 * 86400000000 - 1 ≤ s.tb.stationUs → exec .endOfRangeHold s =
      .next (s.withTimeBase { s.tb with rangeHold := true, residual := 0, gapStart := none, discipline := .drift }
        (if s.tb.discipline.quality = .unsync then [] else [⟨.unsync, s.tb.stationUs, none⟩])).settle)) ∧
  ∀ s : State, s.held = false → s.tb.rangeHold = false → 65536 * 86400000000 - 1 ≤ s.tb.stationUs →
    ∃ t, exec .endOfRangeHold s = .next t ∧
      t = { s with
        tb := { s.tb with
          rangeHold := true, residual := 0, gapStart := none, discipline := .drift, conds := t.tb.conds }
        tc := { s.tc with announcements := t.tc.announcements }
        sc := { s.sc with announcements := t.sc.announcements }, attnU := t.attnU, attnR := t.attnR } ∧
      t.tc.announcements = s.tc.announcements ++
        (if s.tb.discipline.quality = .unsync then [] else [⟨.unsync, s.tb.stationUs, none⟩]) ∧
      t.sc.announcements = s.sc.announcements ++
        (if s.tb.discipline.quality = .unsync then [] else [ScAnnouncement.time ⟨.unsync, s.tb.stationUs, none⟩]) ∧
      t.tb.conds.active .referenceLost = true ∧ t.tb.conds.active .holdoverExpired = true ∧
      t.tb.conds = t.withCause (t.withCause s.tb.conds .referenceLost (lost s)) .holdoverExpired (expired s)

/-- SET TIME (R19): in FREE or DRIFT it steps station time and ends an end-of-range hold; in ACQUIRE, LOCKED or
HOLDOVER it is refused REFERENCE_IN_USE; a millisecond out of range is refused OUT_OF_RANGE. -/
def Obligations.SetTimeStepsOrIsRefused : Prop :=
  ∀ (f : ReqFrame) (s : State), s.admits .setTime f →
    let day := field f.body 0 2
    let ms := field f.body 2 4
    let us := day * 86400000000 + ms * 1000
    (86400000 ≤ ms → s.repliesOnly .setTime f .outOfRange .none) ∧
    (ms < 86400000 →
      s.tb.discipline = .acquire ∨ s.tb.discipline = .locked ∨ s.tb.discipline = .holdover →
      s.repliesOnly .setTime f .referenceInUse .none) ∧
    (ms < 86400000 → s.tb.discipline = .free ∨ s.tb.discipline = .drift →
      ∃ t, exec (.setTime f) s = .next t ∧
        let a : Announcement := ⟨.unsync, us, some ⟨s.tb.stationUs, us, (us : Int) - s.tb.stationUs⟩⟩
        let s' := { s with
          tb := { s.tb with
            stationUs := us, residual := 0, lastStep := some ((us : Int) - s.tb.stationUs), timeValid := true
            rangeHold := false, conds := t.tb.conds }
          tc := { s.tc with announcements := s.tc.announcements ++ [a] }
          sc := { s.sc with announcements := s.sc.announcements ++ [ScAnnouncement.time a] } }
        t = { s'.withReply .setTime f .ok .none with attnU := t.attnU, attnR := t.attnR } ∧
        ((t.tb.conds.find .timeStepped).map fun c => (c.state, c.detail)) =
          some (.clearUnack, .timeStepped ((us : Int) - s.tb.stationUs) .setTime))

/-- Characters of REF_MSG (R4, R188): the start byte begins a message; another character is then the next byte; a gap
of more than 20 ms or a missing stop bit abandons the message. Pairing (R5, R188): a message whose check agrees and
whose second is in range is held when it completes 50 ms to 950 ms after the preceding edge, or when no edge is
recorded; otherwise the held message stays. That the receiver's state decides what a character does is the model's
reading (log 11). -/
def Obligations.ReferenceMessageIsBuiltAndPaired : Prop :=
  (∀ (s : State) (b : Byte), s.held = false →
    (s.tb.refRx = none → b = 0x24 → exec (.refMsgCharacter b) s =
      .next ({ s with tb := { s.tb with refRx := some ⟨[], s.tb.elapsed⟩ } }).settle) ∧
    (s.tb.refRx = none → b ≠ 0x24 → exec (.refMsgCharacter b) s = .next s.settle) ∧
    (∀ rx, s.tb.refRx = some rx → rx.bytes.length < 6 → s.tb.elapsed ≤ rx.mark + 20 →
      exec (.refMsgCharacter b) s =
        .next ({ s with tb := { s.tb with refRx := some ⟨rx.bytes ++ [b], s.tb.elapsed⟩ } }).settle) ∧
    (∀ rx, s.tb.refRx = some rx → rx.mark + 20 < s.tb.elapsed →
      exec .refMsgInterByteTimeout s = .next ({ s with tb := { s.tb with refRx := none } }).settle) ∧
    exec .refMsgBadCharacter s = .next ({ s with tb := { s.tb with refRx := none } }).settle) ∧
  ∀ (s : State) (b0 b1 b2 b3 b4 b5 b6 : Byte) (mark : Nat), s.held = false →
    s.tb.refRx = some ⟨[b0, b1, b2, b3, b4, b5], mark⟩ → s.tb.elapsed ≤ mark + 20 →
    let m : RefMsg := ⟨b0.toNat * 256 + b1.toNat, (b2.toNat * 256 + b3.toNat) * 256 + b4.toNat, b5.getLsbD 0⟩
    let kept := (b6 = b0 ^^^ b1 ^^^ b2 ^^^ b3 ^^^ b4 ^^^ b5 ∧ m.second ≤ 86399) ∧
      ∀ edge, s.tb.precedingEdge = some edge → edge + 50 ≤ s.tb.elapsed ∧ s.tb.elapsed ≤ edge + 950
    (kept → exec (.refMsgComplete b6) s =
      .next ({ s with tb := { s.tb with refRx := none, heldMsg := some m } }).settle) ∧
    (¬ kept → exec (.refMsgComplete b6) s = .next ({ s with tb := { s.tb with refRx := none } }).settle)

/-! ### The links (chapter 2) -/

/-- The checks of a telegram (R27), in order, over the bytes from the length byte on: the check bytes, the kind and
its content codes, the length. A valid telegram gives its flags, object number, source age and content. That a telegram
too short for its kind has its age bytes examined as content is the model's reading (log 14). -/
def Obligations.TelegramChecksComeInOrder : Prop :=
  ∀ (length kind flags objHigh objLow hi lo : Byte) (rest : List Byte),
    let covered := length :: kind :: flags :: objHigh :: objLow :: rest
    let r := checkTelegram (covered ++ [hi, lo])
    let agrees := crc16 covered = (hi ++ lo : BitVec 16)
    (¬ agrees → r = .error .crc) ∧
    (agrees → TelegramKind.ofByte kind = none → r = .error .unknownKind) ∧
    ∀ k, agrees → TelegramKind.ofByte kind = some k →
      let content := rest.take k.contentBytes
      let due := 4 + k.contentBytes + if flags.getLsbD 1 then 2 else 0
      (contentOk k content = false → r = .error .unknownKind) ∧
      (contentOk k content = true → length.toNat ≠ due → r = .error .length) ∧
      (contentOk k content = true → length.toNat = due → ∃ t, r = .ok t ∧ t.kindByte = kind ∧
        t.refresh = flags.getLsbD 0 ∧ t.object = objHigh.toNat * 256 + objLow.toNat ∧
        t.content = contentOf k content ∧
        t.age = if flags.getLsbD 1 then beNat ((rest.drop k.contentBytes).take 2) else 0)

/-- A valid telegram (R28 to R30, R32): dated at its last check byte with the compensation taken off, it becomes the
last valid telegram. A HEARTBEAT brings the link UP unless a marker is pending; another telegram is accepted at a free
place, dropped while a marker is pending, and at a full queue is dropped and opens a gap. That the record keeps the
kind byte as it was received is the model's reading (log 15). -/
def Obligations.ValidTelegramIsDatedAndQueued : Prop :=
  ∀ (s : State) (i : Fin 4) (length : Byte) (before : List Byte) (mark : Nat) (b : Byte) (t : Telegram),
    s.held = false → s.settings.linkEnable.get i = true →
    (s.link i).framing = .receiving (length :: before) mark → before.length + 2 = length.toNat + 3 →
    checkTelegram (length :: (before ++ [b])) = .ok t →
    let taken := (s.settings.linkLatency.get i).toNat + t.age
    let quality := s.tb.discipline.quality
    let dated : StationQ := ⟨s.tb.stationUs / 1000 - taken, quality⟩
    let l := s.link i
    let received : Link := { l with framing := .hunting, lastValid := some dated }
    let up : Link := { received with state := .up, silenceStart := some s.tb.elapsed }
    let dropped : FaultRecord := ⟨.queueFull, ⟨s.tb.stationUs / 1000, quality⟩, some t.kindByte, some t.object, i⟩
    (t.content = none → l.pendingMarker.isSome = true →
      exec (.telegramReceived i b) s = .next (s.setLink i received).settle) ∧
    (t.content = none → l.pendingMarker = none →
      exec (.telegramReceived i b) s = .next ((s.setLink i up).endCause (.link i) .linkGap).settle) ∧
    (∀ c, t.content = some c → l.pendingMarker.isSome = true →
      exec (.telegramReceived i b) s = .next ((s.setLink i received).linkFault i dropped).settle) ∧
    (∀ c, t.content = some c → l.pendingMarker = none → l.queue.length < 64 →
      exec (.telegramReceived i b) s = .next ((s.setLink i { up with
        queue := l.queue ++ [.telegram ⟨c, t.refresh, t.object, dated.ms, s.tb.elapsed - taken, quality, i⟩]
        lastAccepted := some dated }).endCause (.link i) .linkGap).settle) ∧
    (∀ c start, t.content = some c → l.pendingMarker = none → 64 ≤ l.queue.length →
      (l.lastAccepted <|> l.lastValid) = some start →
      exec (.telegramReceived i b) s = .next (((s.setLink i { received with
        state := .gap, silenceStart := none, pendingMarker := some ⟨start, .overflow, i⟩ }).beginCause (.link i)
          .linkGap (.linkGap .overflow start)).linkFault i dropped).settle)

/-- A fault of a receiver (R25, R26, R36, R37): the receiver hunts again; an unlocked capture stores the fault, dated
now, and LINK_ERROR is raised; a locked one only sets the further-faults flag. A length byte outside 4 to 12 is a
LENGTH fault; a missing stop bit or a gap over 20 ms in a telegram is FRAMING. That the record keeps the kind byte as it
was received is the model's choice (log 15). -/
def Obligations.ReceiverFaultsAreCaptured : Prop :=
  ∀ (s : State) (i : Fin 4), s.held = false → s.settings.linkEnable.get i = true →
    let l := s.link i
    let faulted := fun (reason : FaultReason) (kind : Option Byte) (object : Option Nat) =>
      let r : FaultRecord := ⟨reason, ⟨s.tb.stationUs / 1000, s.tb.discipline.quality⟩, kind, object, i⟩
      if l.capture.isNone then
        ((s.setLink i { l with framing := .hunting, capture := some r }).raiseMomentary (.link i) .linkError
          (.linkError reason)).settle
      else (s.setLink i { l with framing := .hunting, further := true }).settle
    let objectIn := fun bytes : List Byte => if 5 ≤ bytes.length then some (field bytes 3 2) else none
    (∀ mark b, l.framing = .receiving [] mark → b.toNat < 4 ∨ 12 < b.toNat →
      exec (.lengthByteRejected i b) s = .next (faulted .length none none)) ∧
    (∀ bytes mark, l.framing = .receiving bytes mark →
      exec (.linkBadCharacter i) s = .next (faulted .framing bytes[1]? (objectIn bytes))) ∧
    (l.framing = .hunting → exec (.linkBadCharacter i) s = .next s.settle) ∧
    (∀ bytes mark, l.framing = .receiving bytes mark → mark + 20 < s.tb.elapsed →
      exec (.linkInterByteTimeout i) s = .next (faulted .framing bytes[1]? (objectIn bytes))) ∧
    (∀ (length : Byte) (before : List Byte) (mark : Nat) (b : Byte) (reason : FaultReason),
      l.framing = .receiving (length :: before) mark → before.length + 2 = length.toNat + 3 →
      checkTelegram (length :: (before ++ [b])) = .error reason →
      exec (.telegramReceived i b) s =
        .next (faulted reason (before ++ [b])[0]? (objectIn (length :: (before ++ [b])))))

/-- Characters on a link (R25, R26): hunting takes only the start byte; then a length byte of 4 to 12, and then every
character as the next byte, until the last check byte. A disabled link takes none. That the receiver's state decides
what a character does is the model's reading (log 11). -/
def Obligations.CharactersBuildATelegram : Prop :=
  ∀ (s : State) (i : Fin 4) (b : Byte), s.held = false →
    let l := s.link i
    let framed := fun f : Framing => Host.Outcome.next (s.setLink i { l with framing := f }).settle
    (s.settings.linkEnable.get i = false → exec (.linkCharacterReceived i b) s = .next s.settle) ∧
    (s.settings.linkEnable.get i = true →
      (l.framing = .hunting → b = 0x7E → exec (.linkCharacterReceived i b) s = framed (.receiving [] s.tb.elapsed)) ∧
      (l.framing = .hunting → b ≠ 0x7E → exec (.linkCharacterReceived i b) s = .next s.settle) ∧
      (∀ mark, l.framing = .receiving [] mark → 4 ≤ b.toNat → b.toNat ≤ 12 →
        exec (.linkCharacterReceived i b) s = framed (.receiving [b] s.tb.elapsed)) ∧
      (∀ length before mark, l.framing = .receiving (length :: before) mark →
        before.length + 2 < length.toNat + 3 → exec (.linkCharacterReceived i b) s =
          framed (.receiving (length :: (before ++ [b])) s.tb.elapsed)))

/-- The silence limit (R33): when it has passed in UP the link enters GAP, LINK_GAP begins, and a SILENCE marker dated
by the last valid telegram takes the tail, or waits while the queue is full. That an expiry which is not due does nothing
is the model's reading (log 2). -/
def Obligations.SilenceOpensAGap : Prop :=
  ∀ (s : State) (i : Fin 4) (start : Nat) (last : StationQ), s.held = false →
    (s.link i).state = .up → (s.link i).silenceStart = some start → (s.link i).lastValid = some last →
    let l := s.link i
    let gap : Link := { l with state := .gap, silenceStart := none }
    let due := (start : Int) + s.settings.silenceLimit.get i * 1000 ≤ (s.tb.elapsed : Int)
    (due → l.queue.length < 64 → exec (.silenceExpiry i) s = .next ((s.setLink i { gap with
      queue := l.queue ++ [.marker ⟨last, .silence, i⟩] }).beginCause (.link i) .linkGap (.linkGap .silence last)).settle) ∧
    (due → 64 ≤ l.queue.length → exec (.silenceExpiry i) s = .next ((s.setLink i { gap with
      pendingMarker := some ⟨last, .silence, i⟩ }).beginCause (.link i) .linkGap (.linkGap .silence last)).settle) ∧
    (¬ due → exec (.silenceExpiry i) s = .next s.settle)

/-! ### The Object Table (chapter 3) -/

/-- DEFINE OBJECT (R45): within its ranges and at an empty place it creates the record of its kind, with defaults for
the parameters not given, dated now, and is answered with the date; else it is refused OUT_OF_RANGE or
NUMBER_IN_USE. -/
def Obligations.DefineObjectCreatesARecord : Prop :=
  ∀ (f : ReqFrame) (s : State), s.admitsEdit .defineObject f →
    let n := field f.body 0 2
    let kind := (byteAt f.body 2).toNat
    let link := (byteAt f.body 3).toNat
    let given := (byteAt f.body 4).toNat = 1
    let parameter := field f.body 5 2
    let within := fun lo hi : Nat => given → lo ≤ parameter ∧ parameter ≤ hi
    let now : Date := ⟨s.tb.stationUs / 1000, s.tb.discipline.quality, .observed⟩
    let inRange := 1 ≤ n ∧ n ≤ 4095 ∧ link < 4 ∧
      ((kind = 1 ∧ within 500 10000) ∨ (kind = 2 ∧ within 500 30000) ∨ (kind = 3 ∧ within 0 1))
    let created := fun k : KindRec => ∀ i : Fin 4, link = i.val → exec (.defineObject f) s =
      .next ((s.setObject n ⟨i, now, now, none, [], k⟩).withReply .defineObject f .ok (.date now)).settle
    (inRange → s.object n = none →
      (kind = 1 → created (.signal ⟨.unknown, .unknown, if given then parameter else 3000, none, none⟩)) ∧
      (kind = 2 → created (.point ⟨.unknown, none, if given then parameter else 6000, none, none, 0⟩)) ∧
      (kind = 3 → created (.berth ⟨.unknown, decide (given ∧ parameter = 1), []⟩))) ∧
    (¬ inRange → s.refusesEdit .defineObject f .outOfRange n none) ∧
    (inRange → (s.object n).isSome = true → s.refusesEdit .defineObject f .numberInUse n none)

/-- AMEND OBJECT and RETIRE OBJECT (R46 to R48). The checks in their order: a number, kind, link or timing attribute
outside its values is OUT_OF_RANGE, an empty place NO_SUCH, a parameter that is not the kind's or outside its range
OUT_OF_RANGE, and a change of kind or link, or a retirement, of a referenced object IN_USE. Else every change given is
made together: the record keeps its kind, with its new parameters, or begins a new life as another kind. Parts equal to
the record's own change nothing. A retired record leaves the table, with its watch slots. That a new limit already
reached expires within the same command is the model's reading (log 26), and so is that the answers to a berth's
entries are dropped when its record ends (log 36). -/
def Obligations.AmendAndRetireObject : Prop :=
  ∀ (f : ReqFrame) (s : State),
    let n := field f.body 0 2
    let numbered := 1 ≤ n ∧ n ≤ 4095
    let now : Date := ⟨s.tb.stationUs / 1000, s.tb.discipline.quality, .observed⟩
    let names := fun p : PathRec => ∃ x ∈ p.points, x.plan.berth = n ∨ ∃ c, x.plan.route = some c ∧ c.point = n
    let referenced := fun r : ObjectRec =>
      (∃ x ∈ s.tc.paths, (x.2.state ∈ [PathState.loaded, .armed, .running] ∨
        ∃ op, s.tc.repeatOp = some op ∧ op.template = x.1) ∧ names x.2) ∨
      (∃ p m, r.kind = .point p ∧ p.movement = some m) ∨ (∃ g c, r.kind = .signal g ∧ g.clearing = some c) ∨
      ∃ b, r.kind = .berth b ∧ b.queue ≠ []
    let unowed := fun ev : BerthEvent =>
      if ev.berth = n ∧ ev.direction = .entry true then { ev with direction := .entry false } else ev
    let dropped := fun t : State => ({ t with
      answers := s.answers.filter fun a => a.berth ≠ n
      berthEvents := s.berthEvents.map unowed } : State)
    (s.admitsEdit .amendObject f →
      let given := fun bit : Nat => (byteAt f.body 2).getLsbD bit
      let newKind := (byteAt f.body 3).toNat
      let newLink := (byteAt f.body 4).toNat
      let limit := field f.body 5 2
      let timing := (byteAt f.body 7).toNat
      let inRange := numbered ∧ (given 0 → 1 ≤ newKind ∧ newKind ≤ 3) ∧ (given 1 → newLink ≤ 3) ∧
        (given 3 → timing ≤ 1)
      (¬ inRange → s.refusesEdit .amendObject f .outOfRange n none) ∧
      (inRange → s.object n = none → s.repliesOnly .amendObject f .noSuch .none) ∧
      ∀ (r : ObjectRec) (kind : ObjectKind) (link : Fin 4), inRange → s.object n = some r →
        kind.code = (if given 0 then newKind else r.kind.kindOf.code) →
        link.val = (if given 1 then newLink else r.link.val) →
        let own := match kind with
          | .point => ¬ given 3 ∧ (given 2 → 500 ≤ limit ∧ limit ≤ 30000)
          | .signal => ¬ given 3 ∧ (given 2 → 500 ≤ limit ∧ limit ≤ 10000)
          | .berth => ¬ given 2
        let changes := kind ≠ r.kind.kindOf ∨ link ≠ r.link
        let accepted := fun t : State => exec (.amendObject f) s = .next (t.withReply .amendObject f .ok .none).settle
        let kept := fun k : KindRec => s.setObject n { r with link := link, kind := k }
        let reborn := fun k : KindRec => accepted (dropped ((s.setObject n
          ⟨link, now, if now.ms < r.since.ms then r.since else now, none, [], k⟩).report (.object n)))
        (¬ own → s.refusesEdit .amendObject f .outOfRange n none) ∧
        (own → changes → referenced r → s.refusesEdit .amendObject f .inUse n none) ∧
        (own → ¬ (changes ∧ referenced r) →
          (∀ p, r.kind = .point p → kind = .point →
            (given 2 → accepted ((kept (.point { p with throwLimit := limit })).throwExpiry n)) ∧
            (¬ given 2 → accepted (kept (.point p)))) ∧
          (∀ g, r.kind = .signal g → kind = .signal →
            (given 2 → accepted ((kept (.signal { g with clearLimit := limit })).clearExpiry n)) ∧
            (¬ given 2 → accepted (kept (.signal g)))) ∧
          (∀ b, r.kind = .berth b → kind = .berth →
            (given 3 → accepted (kept (.berth { b with timing := decide (timing = 1) }))) ∧
            (¬ given 3 → accepted (kept (.berth b)))) ∧
          (r.kind.kindOf ≠ .point → kind = .point →
            reborn (.point ⟨.unknown, none, if given 2 then limit else 6000, none, none, 0⟩)) ∧
          (r.kind.kindOf ≠ .signal → kind = .signal →
            reborn (.signal ⟨.unknown, .unknown, if given 2 then limit else 3000, none, none⟩)) ∧
          (r.kind.kindOf ≠ .berth → kind = .berth →
            reborn (.berth ⟨.unknown, decide (given 3 ∧ timing = 1), []⟩)) ∧
          (s.objects.Sorted → ¬ changes → ¬ given 2 →
            (∀ b, r.kind = .berth b → given 3 → (timing = 1 ↔ b.timing = true)) →
            s.repliesOnly .amendObject f .ok .none))) ∧
    (s.admitsEdit .retireObject f →
      (¬ numbered → s.refusesEdit .retireObject f .outOfRange n none) ∧
      (numbered → s.object n = none → s.repliesOnly .retireObject f .noSuch .none) ∧
      ∀ r, numbered → s.object n = some r →
        (referenced r → s.refusesEdit .retireObject f .inUse n none) ∧
        (¬ referenced r → exec (.retireObject f) s = .next ((dropped { s with
          objects := s.objects.erase n
          watch := s.watch.map (WatchSlot.emptied (.object n)) }).withReply .retireObject f .ok .none).settle))

/-- The lookups of the stores (R50, R51, R103 to R105, R164) answer OK with what their rules list as the records
stand, NO_SUCH for what is not stored, OUT_OF_RANGE outside their ranges, and change nothing. -/
def Obligations.LookupsAnswerAndChangeNothing : Prop :=
  ∀ (f : ReqFrame) (s : State),
    let n := field f.body 0 2
    let slots := fun w : Watched => (List.range 16).filter fun k => (s.watch.val[k]?.map (·.subject)) = some w
    (s.admits .readObject f →
      (n = 0 ∨ 4095 < n → s.repliesOnly .readObject f .outOfRange .none) ∧
      (1 ≤ n → n ≤ 4095 → s.object n = none → s.repliesOnly .readObject f .noSuch .none) ∧
      (∀ r, 1 ≤ n → n ≤ 4095 → s.object n = some r → s.repliesOnly .readObject f .ok (.object
        ⟨n, r.link, r.defined, r.since, r.stale, r.conds.map fun c => (c.cls, c.state), slots (.object n),
          match r.kind with
          | .point p => .point p
          | .signal g => .signal g
          | .berth b => .berth b.occupancy b.timing b.queue.length⟩))) ∧
    (s.admits .findObjects f →
      let kind := (byteAt f.body 2).toNat
      let stale := (byteAt f.body 3).toNat
      let condition := (byteAt f.body 4).toNat
      let inRange := 1 ≤ n ∧ n ≤ 4095 ∧ kind ≤ 3 ∧ stale ≤ 2 ∧ condition ≤ 1
      (¬ inRange → s.repliesOnly .findObjects f .outOfRange .none) ∧
      (inRange → ∃ selected : List (Nat × ObjectRec), selected.Sublist s.objects ∧
        (∀ e ∈ s.objects, e ∈ selected ↔ n ≤ e.1 ∧ (kind = 0 ∨ e.2.kind.kindOf.code = kind) ∧
          (stale = 0 ∨ (stale = 1 ∧ e.2.stale ≠ none) ∨ (stale = 2 ∧ e.2.stale = none)) ∧
          (condition = 0 ∨ ∃ c ∈ e.2.conds, c.state ≠ .activeAck)) ∧
        s.repliesOnly .findObjects f .ok (.objects
          ((selected.take 32).map fun e => ⟨e.1, e.2.kind.kindOf, e.2.link, e.2.kind.stateOfRecord, e.2.since,
            e.2.stale, e.2.conds.length, e.2.conds.any fun c => c.state ≠ .activeAck⟩)
          ((selected[32]?.map (·.1)).getD 0)))) ∧
    (s.admits .readPath f →
      let first := (byteAt f.body 2).toNat
      (n = 0 ∨ 63 < first → s.repliesOnly .readPath f .outOfRange .none) ∧
      (1 ≤ n → first ≤ 63 → s.path n = none → s.repliesOnly .readPath f .noSuch .none) ∧
      (∀ p, 1 ≤ n → first ≤ 63 → s.path n = some p →
        (p.points.length ≤ first → s.repliesOnly .readPath f .outOfRange .none) ∧
        (first < p.points.length → s.repliesOnly .readPath f .ok (.path
          ⟨n, p.headcode, p.day, p.state, p.activation, p.passed, p.carried, p.lastDeviation, p.deadline, p.ended,
            p.conds.map fun c => (c.cls, c.state), slots (.path n), p.templateInUse, p.points.length, first,
            (p.points.drop first).take 32⟩)))) ∧
    (s.admits .findPaths f →
      let state := (byteAt f.body 2).toNat
      let headcode := Headcode.ofBytes f.body 3
      let inRange := 1 ≤ n ∧ state ≤ 6 ∧ (headcode = ⟨0, 0, 0, 0⟩ ∨ headcode.wellFormed = true)
      (¬ inRange → s.repliesOnly .findPaths f .outOfRange .none) ∧
      (inRange → ∃ selected : List (Nat × PathRec), selected.Sublist s.tc.paths ∧
        (∀ e ∈ s.tc.paths, e ∈ selected ↔ n ≤ e.1 ∧ (state = 0 ∨ e.2.state.code = state) ∧
          (headcode = ⟨0, 0, 0, 0⟩ ∨ e.2.headcode = headcode)) ∧
        s.repliesOnly .findPaths f .ok (.paths
          ((selected.take 16).map fun e => ⟨e.1, e.2.headcode, e.2.day, e.2.state, e.2.points.length, e.2.passed,
            e.2.lastDeviation, e.2.deadline.map (·.stage), e.2.conds.length,
            e.2.conds.any fun c => c.state ≠ .activeAck, e.2.templateInUse⟩)
          ((selected[16]?.map (·.1)).getD 0)))) ∧
    (s.admits .readBerthQueue f →
      let start := field f.body 2 2
      (n = 0 ∨ 4095 < n ∨ 2047 < start → s.repliesOnly .readBerthQueue f .outOfRange .none) ∧
      (1 ≤ n → n ≤ 4095 → start ≤ 2047 → (∀ r b, s.object n = some r → r.kind ≠ .berth b) →
        s.repliesOnly .readBerthQueue f .noSuch .none) ∧
      (∀ r b, 1 ≤ n → n ≤ 4095 → start ≤ 2047 → s.object n = some r → r.kind = .berth b →
        (∀ e ∈ b.queue, ∃ p t, s.path e.path = some p ∧ p.points[e.index]? = some t) →
        ∃ found : List ExpectationView, s.repliesOnly .readBerthQueue f .ok (.berthQueue b.queue.length found) ∧
          found.length = min 32 (b.queue.length - start) ∧
          ∀ k v, found[k]? = some v → ∃ e p t, b.queue[start + k]? = some e ∧ s.path e.path = some p ∧
            p.points[e.index]? = some t ∧
            v = ⟨start + k, e.path, p.headcode, e.index, t.plan.kind, t.plan.planned⟩)) ∧
    (s.admits .readConditions f →
      let kind := (byteAt f.body 0).toNat
      let number := field f.body 1 2
      let given := fun (x : Subject) (conds : List Condition) => s.repliesOnly .readConditions f .ok (.conditions
        (conds.map fun c => ⟨x, c, s.settings.classPriority.get c.cls.order, s.settings.classLine.get c.cls.order⟩))
      (kind = 0 → number = 0 → given .timeBase s.tb.conds) ∧
      (∀ i : Fin 4, kind = 1 → number = i.val → given (.link i) (s.link i).conds) ∧
      (∀ i : Fin 4, kind = 2 → number = i.val → given (.line i) (s.line i).conds) ∧
      (∀ r, kind = 3 → 1 ≤ number → number ≤ 4095 → s.object number = some r → given (.object number) r.conds) ∧
      (∀ p, kind = 4 → 1 ≤ number → s.path number = some p → given (.path number) p.conds) ∧
      (kind = 3 → 1 ≤ number → number ≤ 4095 → s.object number = none →
        s.repliesOnly .readConditions f .noSuch .none) ∧
      (kind = 4 → 1 ≤ number → s.path number = none → s.repliesOnly .readConditions f .noSuch .none) ∧
      (4 < kind ∨ (kind = 0 ∧ number ≠ 0) ∨ (1 ≤ kind ∧ kind ≤ 2 ∧ 4 ≤ number) ∨
        (kind = 3 ∧ (number = 0 ∨ 4095 < number)) ∨ (kind = 4 ∧ number = 0) →
        s.repliesOnly .readConditions f .outOfRange .none))

/-! ### The Movement Dater (chapters 3 and 4) -/

/-- Taking a gap marker (R53): every record of the marker's link that is not yet stale becomes stale from the gap
start, and the slots that watch one of them are marked changed; nothing else changes but the queue. -/
def Obligations.GapMarkerMakesRecordsStale : Prop :=
  ∀ (s : State) (i : Fin 4) (m : GapMarker) (rest : List QueueEntry), s.held = false →
    (s.link i).queue = .marker m :: rest →
    ∃ t, exec (.takeGapMarker i) s = .next t ∧
      t = { s with
        links := (s.withoutHead i rest).links, objects := t.objects, watch := t.watch
        attnU := t.attnU, attnR := t.attnR } ∧
      (∀ n, s.object n = none → t.object n = none) ∧
      (∀ n r, s.object n = some r → r.link = m.link → r.stale = none →
        t.object n = some { r with stale := some m.start }) ∧
      (∀ n r, s.object n = some r → r.link ≠ m.link ∨ r.stale.isSome = true → t.object n = some r) ∧
      (∀ k : Fin 16,
        ((∃ n r, (s.watch.get k).subject = .object n ∧ s.object n = some r ∧ r.link = m.link ∧ r.stale = none) →
          t.watch.get k = { s.watch.get k with changed := true }) ∧
        ((∀ n r, (s.watch.get k).subject = .object n → s.object n = some r → r.link ≠ m.link ∨ r.stale ≠ none) →
          t.watch.get k = s.watch.get k))

/-- The checks of a telegram entry (R52, R38): the number and its record, the kind, the link, and for a step that is
no REFRESH the from-berth in the same way. The first that fails decides the fault, dated by the entry, reported to the
capture of its link; the entry changes no record. -/
def Obligations.EntryFailingItsChecksIsDiscarded : Prop :=
  ∀ (s : State) (i : Fin 4) (e : TelegramEntry) (rest : List QueueEntry), s.held = false →
    (s.link i).queue = .telegram e :: rest →
    let discarded := fun reason : FaultReason =>
      exec (.takeTelegramEntry i) s = .next ((s.withoutHead i rest).linkFault e.link
        ⟨reason, ⟨e.ms, e.quality⟩, some e.content.kindByte, some e.object, e.link⟩).settle
    let numbered := fun n : Nat => 1 ≤ n ∧ n ≤ 4095
    (¬ numbered e.object ∨ s.object e.object = none → discarded .unknownObject) ∧
    ∀ r, numbered e.object → s.object e.object = some r →
      (r.kind.kindOf ≠ e.content.needs → discarded .kindMismatch) ∧
      (r.kind.kindOf = e.content.needs → r.link ≠ e.link → discarded .linkMismatch) ∧
      (∀ f h, r.kind.kindOf = e.content.needs → r.link = e.link → e.content = .berthStep f h →
        e.refresh = false → f ≠ 0 →
        (4095 < f ∨ s.object f = none → discarded .unknownObject) ∧
        ∀ g, f ≤ 4095 → s.object f = some g →
          (g.kind.kindOf ≠ .berth → discarded .kindMismatch) ∧
          (g.kind.kindOf = .berth → g.link ≠ e.link → discarded .linkMismatch))

/-- A POINT_CMD (R63, R64): with no movement, it sets the commanded position and begins a movement unless the point is
detected there; with one, it is ignored or reverses the movement, which ends POINT_OVERDUE. A limit already reached
expires at once (R62); that it does so within the same command is the model's reading (log 26). -/
def Obligations.PointCommandMovesThePoint : Prop :=
  ∀ (s : State) (i : Fin 4) (e : TelegramEntry) (rest : List QueueEntry) (q : Pos) (r : ObjectRec) (p : PointRec),
    s.held = false → (s.link i).queue = .telegram e :: rest → e.content = .pointCmd q → 1 ≤ e.object →
    e.object ≤ 4095 → s.object e.object = some r → r.link = e.link → r.kind = .point p →
    let popped := s.withoutHead i rest
    let write := fun p' : PointRec => popped.setObject e.object { r with kind := .point p' }
    let moving := fun reversed : Bool =>
      ({ p with
        commanded := some q
        movement := some ⟨q, ⟨max e.ms r.since.ms, e.quality, .observed⟩, e.mark, reversed, true⟩ } : PointRec)
    (p.movement = none → p.detected = q.detected →
      exec (.takeTelegramEntry i) s = .next (write { p with commanded := some q }).settle) ∧
    (p.movement = none → p.detected ≠ q.detected →
      exec (.takeTelegramEntry i) s = .next ((write (moving false)).throwExpiry e.object).settle) ∧
    (∀ m, p.movement = some m → m.toward = q → exec (.takeTelegramEntry i) s = .next popped.settle) ∧
    (∀ m, p.movement = some m → m.toward ≠ q → exec (.takeTelegramEntry i) s =
      .next (((write (moving true)).endCause (.object e.object) .pointOverdue).throwExpiry e.object).settle)

/-- A POINT_IND (R65 to R68, R81) dates a change of the detected position. For the position of a movement it completes it:
duration and count, POINT_OVERDUE and POINT_LOST_DETECTION end; for another position during one, POINT_WRONG_DETECTION is
raised and POINT_LOST_DETECTION ends. Without one, NONE begins POINT_LOST_DETECTION; a change to another position ends it,
and raises POINT_UNCOMMANDED where it was not commanded. Exactly the slots that watch the record are marked changed, and
only where its position, its stale mark or a condition changed (R58). Every other record, condition and register
stands. -/
def Obligations.PointIndicationsAreApplied : Prop :=
  ∀ (s : State) (i : Fin 4) (e : TelegramEntry) (rest : List QueueEntry) (d : Detected) (r : ObjectRec)
    (p : PointRec),
    s.held = false → (s.link i).queue = .telegram e :: rest → e.content = .pointInd d → d ≠ .unknown →
    1 ≤ e.object → e.object ≤ 4095 → s.object e.object = some r → r.link = e.link → r.kind = .point p →
    let ms := max e.ms r.since.ms
    let known := match r.stale with | some t => max r.since.ms t.ms | none => r.since.ms
    let date : Date :=
      ⟨ms, e.quality, if p.detected = .unknown ∨ e.refresh = true then .afterGap (min known ms) else .observed⟩
    let valid := decide (e.refresh = false ∧ p.detected ≠ .unknown ∧ (r.stale = none ∨ p.detected ≠ d))
    let stood : PointRec := { p with detected := d }
    let uncommanded := match p.commanded with
      | some c => decide (c.detected ≠ d ∧ p.detected ≠ .unknown)
      | none => decide (p.detected = .normal ∨ p.detected = .reverse)
    let now : Date := ⟨s.tb.stationUs / 1000, s.tb.discipline.quality, .observed⟩
    let lost := r.conds.active .pointLostDetection
    let found := r.conds.without .pointLostDetection
    let after : PointRec × CondSet × Bool := match p.movement with
      | some m =>
        if d = m.toward.detected then
          ({ stood with
            movement := none
            lastDuration := some (encodeDuration (e.mark - m.startMark) valid)
            count := min 65535 (p.count + 1) },
            (r.conds.without .pointOverdue).without .pointLostDetection, r.conds.active .pointOverdue || lost)
        else if d = .none then (stood, r.conds, false)
        else (stood, (r.conds.raised .pointWrongDetection now s.tb.elapsed (.pointWrongDetection m.toward d)).without
          .pointLostDetection, true)
      | none =>
        if d = .none then
          (stood, s.withCause r.conds .pointLostDetection (.pointLostDetection p.detected), !lost)
        else if p.detected = d then (stood, r.conds, false)
        else if uncommanded = true then
          (stood, found.raised .pointUncommanded now s.tb.elapsed (.pointUncommanded p.detected d p.commanded), true)
        else (stood, found, lost)
    ∃ t, exec (.takeTelegramEntry i) s = .next t ∧
      t = { s with
        links := (s.withoutHead i rest).links, objects := t.objects, watch := t.watch
        attnU := t.attnU, attnR := t.attnR } ∧
      (∀ n, n ≠ e.object → t.object n = s.object n) ∧
      t.object e.object = some { r with
        stale := none
        since := if p.detected = d then r.since else date
        conds := after.2.1
        kind := .point after.1 } ∧
      ∀ k : Fin 16, t.watch.get k =
        if (p.detected ≠ d ∨ r.stale.isSome = true ∨ after.2.2 = true) ∧ (s.watch.get k).subject = .object e.object then
          { s.watch.get k with changed := true }
        else s.watch.get k

/-- A SIGNAL_CMD and a SIGNAL_IND (R70 to R74): a command sets the requested state, and begins or ends a clearing; an
indication writes the aspect, and a proceed aspect completes the clearing with its duration, which ends SIGNAL_SLOW_CLEAR.
DARK begins SIGNAL_LAMP_FAULT with the aspect before, a lit aspect ends it; SIGNAL_UNCOMMANDED is raised exactly by a change
to a proceed aspect with STOP requested. After an indication exactly the slots that watch the record are marked changed, and
only where its aspect, its stale mark or a condition changed (R58). Every other record, condition and register stands.
That a limit already reached expires within the same command is the model's reading (log 26). -/
def Obligations.SignalFollowsCommandsAndIndications : Prop :=
  ∀ (s : State) (i : Fin 4) (e : TelegramEntry) (rest : List QueueEntry) (r : ObjectRec) (g : SignalRec),
    s.held = false → (s.link i).queue = .telegram e :: rest → 1 ≤ e.object → e.object ≤ 4095 →
    s.object e.object = some r → r.link = e.link → r.kind = .signal g →
    let popped := s.withoutHead i rest
    let write := fun g' : SignalRec => popped.setObject e.object { r with kind := .signal g' }
    let ms := max e.ms r.since.ms
    let known := match r.stale with | some t => max r.since.ms t.ms | none => r.since.ms
    let date : Date :=
      ⟨ms, e.quality, if g.aspect = .unknown ∨ e.refresh = true then .afterGap (min known ms) else .observed⟩
    (e.content = .signalCmd .off → g.aspect = .stop → g.clearing = none → exec (.takeTelegramEntry i) s =
      .next ((write { g with
        requested := .off
        clearing := some ⟨⟨ms, e.quality, .observed⟩, e.mark, true⟩ }).clearExpiry e.object).settle) ∧
    (e.content = .signalCmd .off → g.aspect ≠ .stop ∨ g.clearing ≠ none → exec (.takeTelegramEntry i) s =
      .next (write { g with requested := .off }).settle) ∧
    (e.content = .signalCmd .stop → exec (.takeTelegramEntry i) s =
      .next ((write { g with requested := .stop, clearing := none }).endCause (.object e.object)
        .signalSlowClear).settle) ∧
    (∀ a, e.content = .signalInd a →
      let proceeds := a = .restrict ∨ a = .caution ∨ a = .proceed
      let completes := proceeds ∧ g.clearing.isSome = true
      let valid := decide (e.refresh = false ∧ g.aspect ≠ .unknown ∧ (r.stale = none ∨ g.aspect ≠ a))
      let now : Date := ⟨s.tb.stationUs / 1000, s.tb.discipline.quality, .observed⟩
      let proved := if completes then r.conds.without .signalSlowClear else r.conds
      let lamp :=
        if a = .dark then s.withCause proved .signalLampFault (.signalLampFault g.aspect)
        else proved.without .signalLampFault
      let altered := g.aspect ≠ a ∨ r.stale.isSome = true ∨
        (completes ∧ r.conds.active .signalSlowClear = true) ∨ (a = .dark ↔ r.conds.active .signalLampFault = false)
      ∃ t, exec (.takeTelegramEntry i) s = .next t ∧
        t = { s with
          links := popped.links, objects := t.objects, watch := t.watch, attnU := t.attnU, attnR := t.attnR } ∧
        (∀ n, n ≠ e.object → t.object n = s.object n) ∧
        t.object e.object = some { r with
          stale := none
          since := if g.aspect = a then r.since else date
          conds :=
            if proceeds ∧ g.requested = .stop ∧ g.aspect ≠ a then
              lamp.raised .signalUncommanded now s.tb.elapsed (.signalUncommanded g.aspect a)
            else lamp
          kind := .signal { g with
            aspect := a
            clearing := if proceeds then none else g.clearing
            lastDuration := match g.clearing with
              | some c => if proceeds then some (encodeDuration (e.mark - c.requestMark) valid) else g.lastDuration
              | none => g.lastDuration } } ∧
        ∀ k : Fin 16, t.watch.get k =
          if altered ∧ (s.watch.get k).subject = .object e.object then { s.watch.get k with changed := true }
          else s.watch.get k)

/-- A BERTH_STEP (R76, R77, R79): a headcode the to-berth already holds changes nothing; another one exits and the new one
enters, as one dated change; the from-berth empties first, and the events are handed in that order. A BERTH_CANCEL (R78)
empties its berth, and the headcode it held exits. An UNPLANNED_TRAIN cause ends exactly when the headcode it names exits
(R80); every other condition stands. Exactly the slots are marked changed that watch a berth whose occupancy changed or
that was stale (R58). -/
def Obligations.BerthTelegramsHandTheirEvents : Prop :=
  ∀ (s : State) (i : Fin 4) (e : TelegramEntry) (rest : List QueueEntry) (r : ObjectRec) (b : BerthRec),
    s.held = false → (s.link i).queue = .telegram e :: rest → 1 ≤ e.object →
    e.object ≤ 4095 → s.object e.object = some r → r.link = e.link → r.kind = .berth b →
    let dateIn := fun (x : ObjectRec) (known : Bool) =>
      let ms := max e.ms x.since.ms
      let last := match x.stale with | some t => max x.since.ms t.ms | none => x.since.ms
      (⟨ms, e.quality, if known = false ∨ e.refresh = true then .afterGap (min last ms) else .observed⟩ : Date)
    let date := dateIn r (decide (b.occupancy ≠ .unknown))
    let frame := fun t : State => t = { s with
      links := (s.withoutHead i rest).links, objects := t.objects, watch := t.watch
      berthEvents := t.berthEvents, attnU := t.attnU, attnR := t.attnR }
    let afterExit := fun (cs : CondSet) (gone : Option Headcode) => match cs.find .unplannedTrain with
      | some c => match c.detail with
        | .unplannedTrain x _ => if gone = some x then cs.ended .unplannedTrain else cs
        | _ => cs
      | none => cs
    let marks := fun (t : State) (altered : Nat → Prop) => ∀ k : Fin 16,
      ((∃ n, (s.watch.get k).subject = .object n ∧ altered n) →
        t.watch.get k = { s.watch.get k with changed := true }) ∧
      ((∀ n, (s.watch.get k).subject = .object n → ¬ altered n) → t.watch.get k = s.watch.get k)
    let emptied := fun (t : State) (n : Nat) (x : ObjectRec) (c : BerthRec) (left : Date) =>
      t.object n = some { x with
        stale := none
        since := if c.occupancy = .empty then x.since else left
        conds := afterExit x.conds (match c.occupancy with
          | .occupied h => some h
          | .empty => none
          | .unknown => none)
        kind := .berth { c with occupancy := .empty } }
    let emptying := fun (x : ObjectRec) (c : BerthRec) => c.occupancy ≠ .empty ∨ x.stale.isSome = true
    let leaving := fun (n : Nat) (c : BerthRec) (left : Date) => match c.occupancy with
      | .occupied x => [(⟨n, x, .exit, left⟩ : BerthEvent)]
      | .empty => []
      | .unknown => []
    (e.content = .berthCancel → ∃ t, exec (.takeTelegramEntry i) s = .next t ∧ frame t ∧
      emptied t e.object r b date ∧ t.berthEvents = s.berthEvents ++ leaving e.object b date ∧
      marks t (fun n => n = e.object ∧ emptying r b) ∧ ∀ n, n ≠ e.object → t.object n = s.object n) ∧
    ∀ (f : Nat) (h : Headcode), e.content = .berthStep f h →
      let arriving : List BerthEvent := match b.occupancy with
        | .occupied x =>
          if x = h then [] else [⟨e.object, x, .exit, date⟩, ⟨e.object, h, .entry b.timing, date⟩]
        | .empty => [⟨e.object, h, .entry b.timing, date⟩]
        | .unknown => [⟨e.object, h, .entry b.timing, date⟩]
      let arrived := fun t : State => t.object e.object = some { r with
        stale := none
        since := if b.occupancy = .occupied h then r.since else date
        conds := afterExit r.conds (match b.occupancy with
          | .occupied x => if x = h then none else some x
          | .empty => none
          | .unknown => none)
        kind := .berth { b with occupancy := .occupied h } }
      let arrives := b.occupancy ≠ .occupied h ∨ r.stale.isSome = true
      (e.refresh = true ∨ f = 0 ∨ f = e.object →
        ∃ t, exec (.takeTelegramEntry i) s = .next t ∧ frame t ∧ arrived t ∧
          t.berthEvents = s.berthEvents ++ arriving ∧ marks t (fun n => n = e.object ∧ arrives) ∧
          ∀ n, n ≠ e.object → t.object n = s.object n) ∧
      (∀ g c, e.refresh = false → 1 ≤ f → f ≤ 4095 → f ≠ e.object → s.object f = some g → g.link = e.link →
        g.kind = .berth c →
        let left := dateIn g (decide (c.occupancy ≠ .unknown))
        ∃ t, exec (.takeTelegramEntry i) s = .next t ∧ frame t ∧ arrived t ∧ emptied t f g c left ∧
          t.berthEvents = s.berthEvents ++ leaving f c left ++ arriving ∧
          marks t (fun n => (n = e.object ∧ arrives) ∨ (n = f ∧ emptying g c)) ∧
          ∀ n, n ≠ e.object → n ≠ f → t.object n = s.object n)

/-- The limit timers (R62, R69, R75): an expiry that is due stops the timer and begins POINT_OVERDUE or
SIGNAL_SLOW_CLEAR with the part's own detail; the part stays in flight. That one which is not due does nothing is the
model's reading (log 2). -/
def Obligations.LimitExpiriesBeginTheirCauses : Prop :=
  ∀ (s : State) (n : Nat) (r : ObjectRec), s.held = false → s.object n = some r →
    (∀ p m, r.kind = .point p → p.movement = some m →
      (m.running = true → m.startMark + p.throwLimit ≤ s.tb.elapsed →
        exec (.throwLimitExpiry n) s = .next ((s.setObject n { r with
          kind := .point { p with movement := some { m with running := false } } }).beginCause (.object n)
            .pointOverdue (.pointOverdue m.toward m.start m.reversed)).settle) ∧
      (m.running = false ∨ s.tb.elapsed < m.startMark + p.throwLimit →
        exec (.throwLimitExpiry n) s = .next s.settle)) ∧
    (∀ g c, r.kind = .signal g → g.clearing = some c →
      (c.running = true → c.requestMark + g.clearLimit ≤ s.tb.elapsed →
        exec (.clearLimitExpiry n) s = .next ((s.setObject n { r with
          kind := .signal { g with clearing := some { c with running := false } } }).beginCause (.object n)
            .signalSlowClear (.signalSlowClear c.request)).settle) ∧
      (c.running = false ∨ s.tb.elapsed < c.requestMark + g.clearLimit →
        exec (.clearLimitExpiry n) s = .next s.settle))

/-- An unmatched answer (R80, R156): UNPLANNED_TRAIN begins at its berth; when the headcode has left since that entry, it
begins and ends in the same event, whatever the condition was; for a berth retired or changed in kind the answer is
dropped. That the answer given first is taken first is the model's choice (log 33); that the cause of a headcode which still stands is not begun again while active is
its reading, and so is that the entry's date is compared by its absolute station time alone (0.5.2; log 37). (Answers
dropped when a record ends: AmendAndRetireObject.) -/
def Obligations.UnmatchedAnswerReportsTheTrain : Prop :=
  ∀ (s : State) (a : Answer) (rest : List Answer), s.held = false → s.answers = a :: rest →
    let taken := { s with answers := rest }
    let detail := Detail.unplannedTrain a.headcode a.date
    let begun := taken.causeBegins (.object a.berth) .unplannedTrain detail
    (∀ r b, s.object a.berth = some r → r.kind = .berth b →
      b.occupancy = .occupied a.headcode → r.since.ms = a.date.ms →
      exec .unmatchedAnswer s =
        .next (if r.conds.active .unplannedTrain = true then taken else begun).settle) ∧
    (∀ r b, s.object a.berth = some r → r.kind = .berth b →
      ¬ (b.occupancy = .occupied a.headcode ∧ r.since.ms = a.date.ms) →
      exec .unmatchedAnswer s = .next (begun.endCause (.object a.berth) .unplannedTrain).settle) ∧
    (s.object a.berth = none → exec .unmatchedAnswer s = .next taken.settle) ∧
    (∀ r, s.object a.berth = some r → r.kind.kindOf ≠ .berth → exec .unmatchedAnswer s = .next taken.settle)

/-- The duration code (R82): exact below 1,024 ms, ten significant bits below 131,072 ms, saturated from there on. -/
def Obligations.DurationCodeIsClose : Prop :=
  ∀ (d : Nat) (valid : Bool),
    let c := encodeDuration d valid
    c.valid = valid ∧ c.exponent ≤ 7 ∧ c.mantissa ≤ 1023 ∧ c.decoded ≤ 130944 ∧
    (d < 1024 → c.exponent = 0 ∧ c.mantissa = d) ∧
    (1024 ≤ d → d < 131072 → 1 ≤ c.exponent ∧ 2 ^ (c.exponent + 9) ≤ d ∧ d < 2 ^ (c.exponent + 10) ∧
      c.mantissa = d / 2 ^ c.exponent ∧ 512 ≤ c.mantissa) ∧
    (131072 ≤ d → c.exponent = 7 ∧ c.mantissa = 1023) ∧
    (d < 131072 → c.decoded ≤ d ∧ d < c.decoded + 2 ^ c.exponent)

/-! ### The Path Store (chapter 5) -/

/-- LOAD PATH (R89, R90, Table 11-3, Table 11-5): a field of the header or of an entry outside its range is OUT_OF_RANGE;
for every body whose fields lie within their ranges, the checks follow in the order of Table 5-6, and on acceptance a
LOADED record with exactly the plan fields sent, its entries taken from the pool and its activation time from its first
point; a path whose activation time is reached is armed at once. That a fault of the header latches no index, and ORDER the
index of the later entry of the first decreasing pair, are the model's readings (log 12). -/
def Obligations.LoadPathStoresThePlan : Prop :=
  (∀ (f : ReqFrame) (s : State), s.admitsEdit .loadPath f →
    let n := field f.body 0 2
    let count := (byteAt f.body 8).toNat
    let header := 1 ≤ n ∧ (Headcode.ofBytes f.body 2).wellFormed = true ∧ 2 ≤ count ∧ count ≤ 64
    (¬ header → s.refusesEdit .loadPath f .outOfRange n none) ∧
    (∀ i, header → i < count → ¬ entryInRange f.body (9 + 14 * i) →
      (∀ k < i, entryInRange f.body (9 + 14 * k)) → s.refusesEdit .loadPath f .outOfRange n (some i))) ∧
  ∀ (f : ReqFrame) (s : State) (n day : Nat) (h : Headcode) (plans : List Plan), s.admitsEdit .loadPath f →
    f.body = toBe 2 n ++ h.bytes ++ toBe 2 day ++ [BitVec.ofNat 8 plans.length] ++ plans.flatMap Plan.bytes →
    1 ≤ n → n ≤ 65535 → day ≤ 65535 → h.wellFormed = true → 2 ≤ plans.length → plans.length ≤ 64 →
    (∀ p ∈ plans, 1 ≤ p.berth ∧ p.berth ≤ 4095 ∧ p.planned ≤ 3599 ∧ p.early ≤ 1800 ∧ p.late ≤ 1800 ∧
      p.allowance ≤ 1800 ∧ ∀ c, p.route = some c → 1 ≤ c.point ∧ c.point ≤ 4095) →
    let reserved := match s.tc.repeatOp with | some op => op.count + 1 - op.next | none => 0
    let disturbed := s.tc.digest.map fun d => ({ d with disturbed := true } : DigestWalk)
    let taken := (s.path n).isSome = true ∨
      ∃ op, s.tc.repeatOp = some op ∧ op.first + (op.next - 1) ≤ n ∧ n < op.first + op.count
    let stored := fun p : Plan => (∃ r b, s.object p.berth = some r ∧ r.kind = .berth b) ∧
      ∀ c, p.route = some c → ∃ r q, s.object c.point = some r ∧ r.kind = .point q
    let ordered := plans.Pairwise fun a b => a.planned ≤ b.planned
    let roomy := s.tc.paths.length + reserved + 1 ≤ 1024
    (taken → s.refusesEdit .loadPath f .numberInUse n none) ∧
    (∀ i p, ¬ taken → plans[i]? = some p → ¬ stored p → (∀ q ∈ plans.take i, stored q) →
      s.refusesEdit .loadPath f .badObject n (some i)) ∧
    (¬ taken → (∀ p ∈ plans, stored p) → ¬ ordered → ∃ i, s.refusesEdit .loadPath f .order n (some i)) ∧
    (∀ i a b, ¬ taken → (∀ p ∈ plans, stored p) → plans[i]? = some a → plans[i + 1]? = some b → b.planned < a.planned →
      (∀ j x y, j < i → plans[j]? = some x → plans[j + 1]? = some y → x.planned ≤ y.planned) →
      s.refusesEdit .loadPath f .order n (some (i + 1))) ∧
    (¬ taken → (∀ p ∈ plans, stored p) → ordered → ¬ roomy → s.refusesEdit .loadPath f .storeFull n none) ∧
    (¬ taken → (∀ p ∈ plans, stored p) → ordered → roomy → s.tc.poolFree < plans.length →
      s.refusesEdit .loadPath f .poolFull n none) ∧
    (∀ first ∈ plans.head?, ¬ taken → (∀ p ∈ plans, stored p) → ordered → roomy → plans.length ≤ s.tc.poolFree →
      let activation := day * 86400000 + first.planned * 30000 - (s.settings.armingLead * 60000).toNat
      let record : PathRec := ⟨h, day, .loaded, activation, plans.map fun p => ⟨p, none⟩, 0, 0, none, none, none, [],
        false, false⟩
      let loaded := { s with tc := { s.tc with
        paths := s.tc.paths.set n record
        poolFree := s.tc.poolFree - plans.length
        digest := disturbed } }
      (s.tc.service = .suspended ∨ s.tb.stationUs / 1000 < activation → exec (.loadPath f) s =
        .next (loaded.withReply .loadPath f .ok (.pathState .loaded)).settle) ∧
      (s.tc.service = .serving → activation ≤ s.tb.stationUs / 1000 → exec (.loadPath f) s =
        .next ((loaded.activate n record).withReply .loadPath f .ok (.pathState .armed)).settle))

/-- AMEND TIMING POINT, SHIFT PATH and COPY PATH (R91 to R93): each refusal in the order of Table 5-6; accepted, they
change the plan fields they name and nothing else of the records but what is computed from them. A LOADED path whose new
activation time is reached, and a copy whose time is, are armed at once. A shift ends PATH_OVERDUE, which begins again at
once where the new deadline is due. That it does so within the same command, that COPY PATH's OK carries no body, and that
a delta of 0 recomputes the activation time of a LOADED path, are the model's readings (log 34, log 13, log 21). -/
def Obligations.PlanEditsChangeThePlan : Prop :=
  ∀ (f : ReqFrame) (s : State) (n : Nat), n = field f.body 0 2 →
    let disturbed := s.tc.digest.map fun d => ({ d with disturbed := true } : DigestWalk)
    let written := fun p' : PathRec =>
      { s with tc := { s.tc with paths := s.tc.paths.set n p', digest := disturbed } }
    let activation := fun (day : Nat) (t : Plan) =>
      day * 86400000 + t.planned * 30000 - (s.settings.armingLead * 60000).toNat
    let early := fun time : Nat => s.tc.service = .suspended ∨ s.tb.stationUs / 1000 < time
    let reached := fun time : Nat => s.tc.service = .serving ∧ time ≤ s.tb.stationUs / 1000
    let stored := fun x : Plan => (∃ r b, s.object x.berth = some r ∧ r.kind = .berth b) ∧
      ∀ c, x.route = some c → ∃ r q, s.object c.point = some r ∧ r.kind = .point q
    let live := fun p : PathRec => p.state = .loaded ∨ p.state = .armed ∨ p.state = .running
    let shifts := fun (delta : Int) (x : Plan) => 0 ≤ (x.planned : Int) + delta ∧ (x.planned : Int) + delta ≤ 3599
    let shifted := fun (delta : Int) (x : Plan) => ({ x with planned := ((x.planned : Int) + delta).toNat } : Plan)
    (s.admitsEdit .amendTimingPoint f →
      let index := (byteAt f.body 2).toNat
      let refused := fun status => s.refusesEdit .amendTimingPoint f status n (some index)
      let inRange := entryInRange f.body 3 ∧ 1 ≤ n ∧ index ≤ 63
      (¬ inRange → refused .outOfRange) ∧
      (inRange → s.path n = none → s.repliesOnly .amendTimingPoint f .noSuch .none) ∧
      ∀ (p : PathRec) (plan : Plan), inRange → s.path n = some p → planOf f.body 3 = some plan →
        let guarded := (p.state = .armed ∨ p.state = .running) ∧ index < p.passed + 2
        let ordered := (∀ i x, index = i + 1 → p.points[i]? = some x → x.plan.planned ≤ plan.planned) ∧
          ∀ x, p.points[index + 1]? = some x → plan.planned ≤ x.plan.planned
        let edits := p.templateInUse = false ∧ live p ∧ ¬ guarded
        (p.templateInUse = true → refused .inUse) ∧
        (p.templateInUse = false → ¬ live p → refused .stateConflict) ∧
        (p.templateInUse = false → live p → guarded → refused .notWhileRunning) ∧
        (edits → ¬ stored plan → refused .badObject) ∧
        (edits → stored plan → ¬ ordered → refused .order) ∧
        (edits → stored plan → ordered → p.points[index]? = none → refused .outOfRange) ∧
        (∀ x, edits → stored plan → ordered → p.points[index]? = some x →
          let amended := { p with points := p.points.set index { x with plan := plan } }
          let recomputed := { amended with activation := activation p.day plan }
          (index ≠ 0 ∨ p.state ≠ .loaded → exec (.amendTimingPoint f) s =
            .next ((written amended).withReply .amendTimingPoint f .ok .none).settle) ∧
          (index = 0 → p.state = .loaded → early (activation p.day plan) → exec (.amendTimingPoint f) s =
            .next ((written recomputed).withReply .amendTimingPoint f .ok .none).settle) ∧
          (index = 0 → p.state = .loaded → reached (activation p.day plan) → exec (.amendTimingPoint f) s =
            .next (((written recomputed).activate n recomputed).withReply .amendTimingPoint f .ok .none).settle))) ∧
    (s.admitsEdit .shiftPath f →
      let delta := signed16 (field f.body 2 2)
      let refused := fun status => s.refusesEdit .shiftPath f status n none
      let inRange := 1 ≤ n ∧ -720 ≤ delta ∧ delta ≤ 720
      (¬ inRange → refused .outOfRange) ∧
      (inRange → s.path n = none → s.repliesOnly .shiftPath f .noSuch .none) ∧
      ∀ p : PathRec, inRange → s.path n = some p →
        let points := p.points.take p.passed ++ (p.points.drop p.passed).map fun x =>
          { x with plan := shifted delta x.plan }
        let kept := ∀ x ∈ p.points.drop p.passed, shifts delta x.plan
        let ordered := ∀ i x y, p.state = .running → p.passed = i + 1 → p.points[i]? = some x →
          p.points[i + 1]? = some y → (x.plan.planned : Int) ≤ (y.plan.planned : Int) + delta
        let edits := p.templateInUse = false ∧ live p
        (p.templateInUse = true → refused .inUse) ∧
        (p.templateInUse = false → ¬ live p → refused .stateConflict) ∧
        (edits → ¬ ordered → refused .order) ∧
        (edits → ordered → ¬ kept → refused .outOfRange) ∧
        (∀ x, edits → p.state = .loaded → kept → points[0]? = some x →
          let recomputed := { p with points := points, activation := activation p.day x.plan }
          (early recomputed.activation → exec (.shiftPath f) s =
            .next ((written recomputed).withReply .shiftPath f .ok .none).settle) ∧
          (reached recomputed.activation → exec (.shiftPath f) s =
            .next (((written recomputed).activate n recomputed).withReply .shiftPath f .ok .none).settle)) ∧
        (∀ x, edits → p.state ≠ .loaded → ordered → kept → points[p.passed]? = some x →
          let projected := (p.day * 86400000 + x.plan.planned * 30000 : Nat) +
            max 0 (p.carried - (x.plan.allowance : Int)) * 1000
          let due := projected + (x.plan.late : Int) * 1000
          let again := p.conds.active .pathOverdue = true ∧ s.tc.service = .serving ∧ due ≤ (s.tb.stationUs / 1000 : Nat)
          let moved := fun d => (written { p with points := points, deadline := some d }).endCause (.path n) .pathOverdue
          (¬ again → exec (.shiftPath f) s =
            .next ((moved ⟨due, .overdue⟩).withReply .shiftPath f .ok .none).settle) ∧
          (again → exec (.shiftPath f) s =
            .next (((moved ⟨projected + s.settings.lostLimit * 60000, .lost⟩).beginCause (.path n) .pathOverdue
              (.pathOverdue p.passed projected)).withReply .shiftPath f .ok .none).settle))) ∧
    (s.admitsEdit .copyPath f →
      let m := field f.body 2 2
      let delta := signed16 (field f.body 4 2)
      let headcode := Headcode.ofBytes f.body 6
      let reserved := match s.tc.repeatOp with | some op => op.count + 1 - op.next | none => 0
      let taken := (s.path m).isSome = true ∨
        ∃ op, s.tc.repeatOp = some op ∧ op.first + (op.next - 1) ≤ m ∧ m < op.first + op.count
      let refused := fun status => s.refusesEdit .copyPath f status n none
      let inRange := 1 ≤ n ∧ 1 ≤ m ∧ -720 ≤ delta ∧ delta ≤ 720 ∧ headcode.wellFormed = true
      (¬ inRange → refused .outOfRange) ∧
      (inRange → s.path n = none → s.repliesOnly .copyPath f .noSuch .none) ∧
      (∀ p : PathRec, inRange → s.path n = some p →
        let allStored := ∀ x ∈ p.points, stored x.plan
        let kept := ∀ x ∈ p.points, shifts delta x.plan
        let roomy := s.tc.paths.length + reserved + 1 ≤ 1024
        (taken → s.refusesEdit .copyPath f .numberInUse m none) ∧
        (¬ taken → ¬ allStored → refused .badObject) ∧
        (¬ taken → allStored → ¬ kept → refused .outOfRange) ∧
        (¬ taken → allStored → kept → ¬ roomy → refused .storeFull) ∧
        (¬ taken → allStored → kept → roomy → s.tc.poolFree < p.points.length → refused .poolFull) ∧
        (∀ first ∈ p.points.head?, ¬ taken → allStored → kept → roomy → p.points.length ≤ s.tc.poolFree →
          let time := activation p.day (shifted delta first.plan)
          let copy : PathRec := ⟨headcode, p.day, .loaded, time, p.points.map fun x => ⟨shifted delta x.plan, none⟩,
            0, 0, none, none, none, [], false, false⟩
          let copied := { s with tc := { s.tc with
            paths := s.tc.paths.set m copy
            poolFree := s.tc.poolFree - p.points.length
            digest := disturbed } }
          (early time → exec (.copyPath f) s = .next (copied.withReply .copyPath f .ok .none).settle) ∧
          (reached time → exec (.copyPath f) s =
            .next ((copied.activate m copy).withReply .copyPath f .ok .none).settle))))

/-- REPEAT PATH (R98 to R102): its refusals in the order of Table 5-6; its acceptance reserves what the copies need and
marks the template. Each creation stores the next copy, shifted, numbered and with its serial digits stepped, and arms it
at once when its time is reached. The last one also ends the operation: the template's mark is cleared, a template marked
for retirement is retired, and the slot is completed. -/
def Obligations.RepeatPathReservesAndCopies : Prop :=
  (∀ (f : ReqFrame) (s : State), s.admitsEdit .repeatPath f →
    let n := field f.body 0 2
    let first := field f.body 2 2
    let count := (byteAt f.body 4).toNat
    let interval := field f.body 5 2
    let step := (byteAt f.body 7).toNat
    let reserved := match s.tc.repeatOp with | some op => op.count + 1 - op.next | none => 0
    let taken := fun m : Nat => (s.path m).isSome = true ∨
      ∃ op, s.tc.repeatOp = some op ∧ op.first + (op.next - 1) ≤ m ∧ m < op.first + op.count
    let refused := fun status => s.refusesEdit .repeatPath f status n none
    let inRange := 1 ≤ n ∧ 1 ≤ first ∧ 1 ≤ count ∧ count ≤ 64 ∧ 1 ≤ interval ∧ interval ≤ 720 ∧ step ≤ 99 ∧
      first + count - 1 ≤ 65535
    (¬ inRange → refused .outOfRange) ∧
    (inRange → s.path n = none → s.repliesOnly .repeatPath f .noSuch .none) ∧
    ∀ p : PathRec, inRange → s.path n = some p →
      let free := ∀ i < count, ¬ taken (first + i)
      let stored := ∀ x ∈ p.points, (∃ r b, s.object x.plan.berth = some r ∧ r.kind = .berth b) ∧
        ∀ c, x.plan.route = some c → ∃ r q, s.object c.point = some r ∧ r.kind = .point q
      let digits := ∃ a b : Fin 10, p.headcode.c2 = BitVec.ofNat 8 (0x30 + a) ∧ p.headcode.c3 = BitVec.ofNat 8 (0x30 + b)
      let kept := ∀ x ∈ p.points, x.plan.planned + count * interval ≤ 3599
      let roomy := s.tc.paths.length + reserved + count ≤ 1024
      let entries := count * p.points.length
      (∀ i < count, taken (first + i) → (∀ k < i, ¬ taken (first + k)) →
        s.refusesEdit .repeatPath f .numberInUse (first + i) none) ∧
      (free → ¬ stored → refused .badObject) ∧
      (free → stored → step ≠ 0 → ¬ digits → refused .badHeadcode) ∧
      (free → stored → (step = 0 ∨ digits) → ¬ kept → refused .outOfRange) ∧
      (free → stored → (step = 0 ∨ digits) → kept → ¬ roomy → refused .storeFull) ∧
      (free → stored → (step = 0 ∨ digits) → kept → roomy → s.tc.poolFree < entries → refused .poolFull) ∧
      (free → stored → (step = 0 ∨ digits) → kept → roomy → entries ≤ s.tc.poolFree →
        exec (.repeatPath f) s = .next ({ s with
          tc := { s.tc with
            paths := s.tc.paths.set n { p with templateInUse := true }
            poolFree := s.tc.poolFree - entries
            poolReserved := s.tc.poolReserved + entries
            repeatOp := some ⟨n, first, count, interval, step, 1⟩ }
          sl := { s.sl with
            slot := .inFlight .repeatPath f.tag ⟨s.tb.stationUs / 1000, s.tb.discipline.quality, .observed⟩ } }.withReply
              .repeatPath f .started (.started (match s.sl.slot with
                | .done c => if c.unread then some c else none
                | .empty => none
                | .inFlight _ _ _ => none))).settle)) ∧
  (∀ (h : Headcode) (step i : Nat),
    (step = 0 → copyHeadcode h step i = h) ∧
    ∀ a b : Fin 10, step ≠ 0 → h.c2 = BitVec.ofNat 8 (0x30 + a) → h.c3 = BitVec.ofNat 8 (0x30 + b) →
      let serial := (10 * a.val + b.val + i * step) % 100
      copyHeadcode h step i =
        ⟨h.c0, h.c1, BitVec.ofNat 8 (0x30 + serial / 10), BitVec.ofNat 8 (0x30 + serial % 10)⟩) ∧
  ∀ (s : State) (p : PathRec) (first : TimingPoint) (rest : List TimingPoint) (op : RepeatOp), s.held = false →
    s.tc.repeatOp = some op → s.path op.template = some p → p.points = first :: rest → op.first + (op.next - 1) ≠ op.template →
    let shifted := fun x : Plan => { x with planned := x.planned + op.next * op.interval }
    let time := p.day * 86400000 + (shifted first.plan).planned * 30000 - (s.settings.armingLead * 60000).toNat
    let copy : PathRec := ⟨copyHeadcode p.headcode op.step op.next, p.day, .loaded, time,
      p.points.map fun x => ⟨shifted x.plan, none⟩, 0, 0, none, none, none, [], false, false⟩
    let made := { s with tc := { s.tc with
      paths := s.tc.paths.set (op.first + (op.next - 1)) copy
      poolReserved := s.tc.poolReserved - p.points.length
      repeatOp := some { op with next := op.next + 1 } } }
    let created := fun after : State → State =>
      (s.tc.service = .suspended ∨ s.tb.stationUs / 1000 < time →
        exec .repeatCopyCreation s = .next (after made).settle) ∧
      (s.tc.service = .serving → time ≤ s.tb.stationUs / 1000 →
        exec .repeatCopyCreation s = .next (after (made.activate (op.first + (op.next - 1)) copy)).settle)
    (op.next < op.count → created id) ∧
    (∀ kind tag accepted, op.count ≤ op.next → s.sl.slot = .inFlight kind tag accepted →
      let completed := { s.sl with slot := .done ⟨kind, tag, accepted,
        ⟨s.tb.stationUs / 1000, s.tb.discipline.quality, .observed⟩, .ok, .copies op.count, true⟩ }
      (p.retireMarked = false → created fun t => { t with
        tc := { t.tc with paths := t.tc.paths.set op.template { p with templateInUse := false }, repeatOp := none }
        sl := completed }) ∧
      (p.retireMarked = true → created fun t => { t with
        tc := { t.tc with
          paths := t.tc.paths.erase op.template
          poolFree := t.tc.poolFree + p.points.length
          digest := t.tc.digest.map fun d => { d with disturbed := true }
          repeatOp := none }
        watch := t.watch.map (WatchSlot.emptied (.path op.template))
        sl := completed }))

/-- ARM PATH, CANCEL PATH and RETIRE PATH (R94 to R96), by the path's state and template mark. What arming and disarming
do: an expectation is appended at the tail of its berth's queue and nowhere else; an activation arms the next two points,
the lower index first; disarming removes a path's expectations from every queue, the others in their order (R95, R114 to
R116, R119, R129). That a path number 0 is answered NO_SUCH as well is the model's reading (log 17). -/
def Obligations.ArmCancelRetirePath : Prop :=
  (∀ (s : State) (berth : Nat) (e : Expectation),
    (s.object berth = none → s.expect berth e = s) ∧
    ∀ r, s.object berth = some r → s.expect berth e = { s with objects := s.objects.set berth (match r.kind with
      | .berth b => { r with kind := .berth { b with queue := b.queue ++ [e] } }
      | .point _ => r
      | .signal _ => r) }) ∧
  (∀ (s : State) (n : Nat), s.disarm n = { s with objects := s.objects.map fun x => (x.1, match x.2.kind with
    | .berth b => { x.2 with kind := .berth { b with queue := b.queue.filter fun e => e.path ≠ n } }
    | .point _ => x.2
    | .signal _ => x.2) }) ∧
  (∀ (s : State) (n : Nat) (p : PathRec) (a b : TimingPoint), p.points[p.passed]? = some a →
    p.points[p.passed + 1]? = some b →
    let due := (p.day * 86400000 + a.plan.planned * 30000 : Nat) +
      max 0 (p.carried - (a.plan.allowance : Int)) * 1000 + (a.plan.late : Int) * 1000
    s.activate n p = (({ s with
      tc := { s.tc with paths := s.tc.paths.set n { p with state := .armed, deadline := some ⟨due, .overdue⟩ } }
      watch := s.watch.map (WatchSlot.reported (.path n)) }.expect a.plan.berth ⟨n, p.passed⟩).expect b.plan.berth
        ⟨n, p.passed + 1⟩)) ∧
  ∀ (f : ReqFrame) (s : State) (n : Nat), n = field f.body 0 2 →
    let now : Date := ⟨s.tb.stationUs / 1000, s.tb.discipline.quality, .observed⟩
    let disturbed := s.tc.digest.map fun d => ({ d with disturbed := true } : DigestWalk)
    let retire : Option Deadline :=
      if 0 < s.settings.retention then some ⟨now.ms + s.settings.retention * 60000, .retire⟩ else none
    (s.path n = none →
      (s.admitsEdit .armPath f → s.repliesOnly .armPath f .noSuch .none) ∧
      (s.admitsEdit .cancelPath f → s.repliesOnly .cancelPath f .noSuch .none) ∧
      (s.admitsEdit .retirePath f → s.repliesOnly .retirePath f .noSuch .none)) ∧
    ∀ p, s.path n = some p →
      (s.admitsEdit .armPath f →
        (p.state ≠ .loaded → s.refusesEdit .armPath f .stateConflict n none) ∧
        (∀ a b, p.state = .loaded → p.points[p.passed]? = some a → p.points[p.passed + 1]? = some b →
          let due := (p.day * 86400000 + a.plan.planned * 30000 : Nat) +
            max 0 (p.carried - (a.plan.allowance : Int)) * 1000 + (a.plan.late : Int) * 1000
          exec (.armPath f) s = .next (((((s.setPath n { p with
            state := .armed, deadline := some ⟨due, .overdue⟩ }).report (.path n)).expect a.plan.berth
              ⟨n, p.passed⟩).expect b.plan.berth ⟨n, p.passed + 1⟩).withReply .armPath f .ok .none).settle)) ∧
      (s.admitsEdit .cancelPath f →
        (p.templateInUse = true → s.refusesEdit .cancelPath f .inUse n none) ∧
        (p.templateInUse = false → p.state ∈ [PathState.complete, .cancelled, .lost] →
          s.refusesEdit .cancelPath f .stateConflict n none) ∧
        (p.templateInUse = false → p.state ∈ [PathState.loaded, .armed, .running] →
          exec (.cancelPath f) s = .next (((((s.setPath n { p with
            state := .cancelled, ended := some now, deadline := retire }).report (.path n)).disarm n).endCause (.path n)
              .pathOverdue).withReply .cancelPath f .ok .none).settle)) ∧
      (s.admitsEdit .retirePath f →
        (p.templateInUse = true → s.refusesEdit .retirePath f .inUse n none) ∧
        (p.templateInUse = false → p.state ∈ [PathState.armed, .running] →
          s.refusesEdit .retirePath f .stateConflict n none) ∧
        (p.templateInUse = false → p.state ∈ [PathState.loaded, .complete, .cancelled, .lost] →
          exec (.retirePath f) s = .next ({ s with
            tc := { s.tc with
              paths := s.tc.paths.erase n
              poolFree := s.tc.poolFree + p.points.length
              digest := disturbed }
            watch := s.watch.map (WatchSlot.emptied (.path n)) }.withReply .retirePath f .ok .none).settle))

/-- DIGEST PLAN (R106, R107): the walk takes the stored paths one at a time in ascending number, each through the
CRC-32 with its plan fields; with no path left above its position, the rest retired meanwhile, a step completes the slot
with the register, the counts and the mark as they stand. An empty store has the digest 0. That the walk
completes in the event of its last step is the model's choice (log 10). -/
def Obligations.DigestWalksThePaths : Prop :=
  ∀ s : State,
    let now : Date := ⟨s.tb.stationUs / 1000, s.tb.discipline.quality, .observed⟩
    (∀ f : ReqFrame, s.admits .digestPlan f →
      let displaced := match s.sl.slot with
        | .done c => if c.unread then some c else none
        | .empty => none
        | .inFlight _ _ _ => none
      (s.tc.paths = [] → exec (.digestPlan f) s = .next ({ s with
        tc := { s.tc with digest := none }
        sl := { s.sl with slot := .done ⟨.digestPlan, f.tag, now, now, .ok, .digest 0 0 0 false, true⟩ } }.withReply
          .digestPlan f .started (.started displaced)).settle) ∧
      (∀ e ∈ s.tc.paths, 1 ≤ e.1 → exec (.digestPlan f) s = .next ({ s with
        tc := { s.tc with digest := some ⟨0, 0xFFFFFFFF, 0, 0, false⟩ }
        sl := { s.sl with slot := .inFlight .digestPlan f.tag now } }.withReply
          .digestPlan f .started (.started displaced)).settle)) ∧
    (∀ (d : DigestWalk) (n : Nat) (p : PathRec) (before after : List (Nat × PathRec)), s.held = false →
      s.tc.digest = some d → s.tc.paths = before ++ (n, p) :: after → (∀ e ∈ before, e.1 ≤ d.position) →
      d.position < n →
      let crc := crc32Run d.crc (digestBytes n p)
      (∀ e ∈ after, n < e.1 → exec .digestWalkStep s = .next { s with tc := { s.tc with
        digest := some ⟨n, crc, d.paths + 1, d.points + p.points.length, d.disturbed⟩ } }.settle) ∧
      (∀ tag accepted, after = [] → s.sl.slot = .inFlight .digestPlan tag accepted →
        exec .digestWalkStep s = .next { s with
          tc := { s.tc with digest := none }
          sl := { s.sl with slot := .done ⟨.digestPlan, tag, accepted, now, .ok,
            .digest (crc ^^^ 0xFFFFFFFF) (d.paths + 1) (d.points + p.points.length) d.disturbed, true⟩ } }.settle)) ∧
    ∀ (d : DigestWalk) (tag : Byte) (accepted : Date), s.held = false → s.tc.digest = some d →
      s.sl.slot = .inFlight .digestPlan tag accepted → (∀ e ∈ s.tc.paths, e.1 ≤ d.position) →
      exec .digestWalkStep s = .next { s with
        tc := { s.tc with digest := none }
        sl := { s.sl with slot := .done ⟨.digestPlan, tag, accepted, now, .ok,
          .digest (d.crc ^^^ 0xFFFFFFFF) d.paths d.points d.disturbed, true⟩ } }.settle

/-! ### Timetable checking (chapter 6) -/

/-- The two lists are served at their heads (R110, R113, R116 to R119, R97): the due path that comes first by time and
then by number is armed, made overdue, given up as lost, or retired. While the service is SUSPENDED, or nothing on its
list is due, a service changes nothing (R112, R113); that one at another stage than the head entry's changes nothing
either is the model's reading (log 2). -/
def Obligations.DeadlinesAreServedInOrder : Prop :=
  (∀ s : State, s.held = false →
    ((s.tc.service = .serving → ∀ e ∈ s.tc.paths, e.2.state = .loaded → s.tb.stationUs / 1000 < e.2.activation) →
      exec .activation s = .next s.settle) ∧
    ((s.tc.service = .serving → ∀ e ∈ s.tc.paths, ∀ d, e.2.deadline = some d →
        ((s.tb.stationUs / 1000 : Nat) : Int) < d.time) →
      exec .overdueService s = .next s.settle ∧ exec .lostService s = .next s.settle ∧
        exec .retireDeadlineExpiry s = .next s.settle)) ∧
  ∀ (s : State) (n : Nat) (p : PathRec), s.held = false → s.tc.service = .serving → s.path n = some p →
    let ms := s.tb.stationUs / 1000
    let now : Date := ⟨ms, s.tb.discipline.quality, .observed⟩
    let disturbed := s.tc.digest.map fun d => ({ d with disturbed := true } : DigestWalk)
    let retire : Option Deadline :=
      if 0 < s.settings.retention then some ⟨now.ms + s.settings.retention * 60000, .retire⟩ else none
    let first := fun d : Deadline => p.deadline = some d ∧ d.time ≤ (ms : Int) ∧
      ∀ e ∈ s.tc.paths, ∀ x, e.2.deadline = some x → d.time < x.time ∨ (d.time = x.time ∧ n ≤ e.1)
    (∀ a b, p.state = .loaded → p.activation ≤ ms → p.points[p.passed]? = some a →
      p.points[p.passed + 1]? = some b →
      (∀ e ∈ s.tc.paths, e.2.state = .loaded →
        p.activation < e.2.activation ∨ (p.activation = e.2.activation ∧ n ≤ e.1)) →
      let due := (p.day * 86400000 + a.plan.planned * 30000 : Nat) +
        max 0 (p.carried - (a.plan.allowance : Int)) * 1000 + (a.plan.late : Int) * 1000
      exec .activation s = .next ((((s.setPath n { p with
        state := .armed, deadline := some ⟨due, .overdue⟩ }).report (.path n)).expect a.plan.berth
          ⟨n, p.passed⟩).expect b.plan.berth ⟨n, p.passed + 1⟩).settle) ∧
    (∀ d a, first d → d.stage = .overdue → p.points[p.passed]? = some a →
      let projected := (p.day * 86400000 + a.plan.planned * 30000 : Nat) +
        max 0 (p.carried - (a.plan.allowance : Int)) * 1000
      exec .overdueService s = .next ((s.setPath n { p with
        deadline := some ⟨projected + s.settings.lostLimit * 60000, .lost⟩ }).beginCause (.path n) .pathOverdue
          (.pathOverdue p.passed projected)).settle) ∧
    (∀ d, first d → d.stage = .lost → exec .lostService s = .next (((((s.setPath n { p with
      state := .lost, ended := some now, deadline := retire }).report (.path n)).disarm n).endCause (.path n)
        .pathOverdue).raiseMomentary (.path n) .pathLost (.pathLost p.passed p.passed)).settle) ∧
    (∀ d, first d → (d.stage ≠ .overdue → exec .overdueService s = .next s.settle) ∧
      (d.stage ≠ .lost → exec .lostService s = .next s.settle) ∧
      (d.stage ≠ .retire → exec .retireDeadlineExpiry s = .next s.settle)) ∧
    (∀ d, first d → d.stage = .retire →
      (p.templateInUse = true → exec .retireDeadlineExpiry s =
        .next (s.setPath n { p with deadline := none, retireMarked := true }).settle) ∧
      (p.templateInUse = false → exec .retireDeadlineExpiry s = .next { s with
        tc := { s.tc with
          paths := s.tc.paths.erase n
          poolFree := s.tc.poolFree + p.points.length
          digest := disturbed }
        watch := s.watch.map (WatchSlot.emptied (.path n)) }.settle))

/-- A berth event (R122 to R131): the first expectation from the head whose path's headcode and point's kind agree is
its match; the point is passed, the one before it skipped when it was expected first, and the pass judged to the second
when its date is graded and observed. PATH_OVERDUE ends, and begins again in the same event at a new deadline that is due
(R154). Without a match an entry with the timing attribute is answered unmatched. That a new deadline already reached is
left to an event of its own where no cause was active is the model's reading (log 34). -/
def Obligations.BerthEventPassesItsPoint : Prop :=
  ∀ (s : State) (ev : BerthEvent) (rest : List BerthEvent) (r : ObjectRec) (b : BerthRec), s.held = false →
    s.berthEvents = ev :: rest → s.object ev.berth = some r → r.kind = .berth b →
    let fits := fun e : Expectation => ∃ p x, s.path e.path = some p ∧ p.points[e.index]? = some x ∧
      p.headcode = ev.headcode ∧
      match ev.direction with
      | .entry _ => x.plan.kind = .arrive ∨ x.plan.kind = .pass
      | .exit => x.plan.kind = .depart
    ((∀ e ∈ b.queue, ¬ fits e) → exec .berthEvent s = .next { s with
      berthEvents := rest
      answers := s.answers ++
        if ev.direction = Direction.entry true then ([⟨ev.berth, ev.headcode, ev.date⟩] : List Answer) else [] }.settle) ∧
    (∀ before e after p x, b.queue = before ++ e :: after → (∀ y ∈ before, ¬ fits y) → fits e →
      s.path e.path = some p → p.points[e.index]? = some x →
      let k := e.index
      let now : Date := ⟨s.tb.stationUs / 1000, s.tb.discipline.quality, .observed⟩
      let planned := p.day * 86400000 + x.plan.planned * 30000
      let seconds : Int := max (-32767) (min 32767 (((ev.date.ms : Int) - planned).tdiv 1000))
      let graded := ev.date.quality ≠ .unsync ∧ ev.date.kind = .observed
      let wrong : Option (RouteCheck × PointRec) := x.plan.route.bind fun c =>
        match (s.object c.point).map ObjectRec.kind with
        | some (.point q) => if q.movement ≠ none ∨ q.detected ≠ c.expected.detected then some (c, q) else none
        | _ => none
      let judged : PassOutcome :=
        if seconds < -(x.plan.early : Int) then .early else if (x.plan.late : Int) < seconds then .late else .onTime
      let outcome : OutcomePart :=
        if graded then ⟨some ev.date, judged, some seconds, wrong.isSome⟩
        else ⟨some ev.date, .notChecked, none, wrong.isSome⟩
      let skipped : TimingPoint → TimingPoint := fun y => { y with outcome := some ⟨none, .skipped, none, false⟩ }
      let points := (if k = p.passed + 1 then p.points.modify p.passed skipped else p.points).modify k fun y =>
        { y with outcome := some outcome }
      let raised := fun (on : Bool) (c : Machine.Class) (d : Detail) (cs : CondSet) =>
        if on then cs.raised c now s.tb.elapsed d else cs
      let judgedSet := raised (decide (graded ∧ judged = .early)) .pathEarly (.pathJudged k seconds)
        (raised (decide (graded ∧ judged = .late)) .pathLate (.pathJudged k seconds)
          (raised (decide (k = p.passed + 1)) .pathSkipped (.pathSkipped p.passed k) p.conds))
      let routeSet := match wrong with
        | some (c, q) => raised true .pathWrongRoute
          (.pathWrongRoute k c.point c.expected q.detected q.movement.isSome) judgedSet
        | none => judgedSet
      let carried := if graded then seconds else p.carried
      let done := p.points.length ≤ k + 1
      let endedSet := if routeSet.active .pathOverdue then routeSet.ended .pathOverdue else routeSet
      let projected := fun y : TimingPoint => ((p.day * 86400000 + y.plan.planned * 30000 : Nat) : Int) +
        max 0 (carried - (y.plan.allowance : Int)) * 1000
      let due := fun y : TimingPoint => projected y + (y.plan.late : Int) * 1000
      let again := fun y : TimingPoint => routeSet.active .pathOverdue = true ∧ s.tc.service = .serving ∧
        due y ≤ (s.tb.stationUs / 1000 : Nat)
      let record : PathRec := { p with
        points := points
        passed := k + 1
        carried := carried
        lastDeviation := if graded then some seconds else p.lastDeviation
        conds := match p.points[k + 1]? with
          | some y =>
            if again y then endedSet.begun .pathOverdue now s.tb.elapsed (.pathOverdue (k + 1) (projected y)) else endedSet
          | none => endedSet
        state := if done then .complete else .running
        ended := if done then some ev.date else p.ended
        deadline :=
          if done then
            if 0 < s.settings.retention then some ⟨ev.date.ms + s.settings.retention * 60000, .retire⟩ else none
          else (p.points[k + 1]?).map fun y =>
            if again y then ⟨projected y + s.settings.lostLimit * 60000, .lost⟩ else ⟨due y, .overdue⟩ }
      let armed := fun (t : State) (i : Nat) => match p.points[i]? with
        | some y => t.expect y.plan.berth ⟨e.path, i⟩
        | none => t
      exec .berthEvent s = .next { s with
        berthEvents := rest
        tc := { s.tc with paths := s.tc.paths.set e.path record }
        objects :=
          if done then (s.disarm e.path).objects
          else (armed (armed (s.disarm e.path) (k + 1)) (k + 2)).objects
        watch := s.watch.map (WatchSlot.reported (.path e.path)) }.settle)

/-- Time announcements (R112, R133, R139, R145): the Timetable Checker sets its service state by the announced
quality; the Slave Clock Driver evaluates each line in IDLE or WAIT, as it also does at a target change, by the five
steps of R138, and leaves the others. That a target change evaluates every resting line is the model's reading (log
23). -/
def Obligations.AnnouncementsAreTaken : Prop :=
  ∀ s : State, s.held = false →
    let evaluated := fun t : State => ∀ i : Fin 4,
      ((s.line i).state ≠ .idle → (∀ why, (s.line i).state ≠ .wait why) → t.line i = s.line i) ∧
      ∀ position last, (s.line i).state = .idle ∨ (∃ why, (s.line i).state = .wait why) →
        (s.line i).dial = .at position last →
        t.line i = { s.line i with state := s.evaluatedLine i position last };
    (∀ a rest, s.tc.announcements = a :: rest →
      exec .tcTakesTimeAnnouncement s = .next { s with tc := { s.tc with
        announcements := rest
        service := if a.quality = Quality.unsync then .suspended else .serving } }.settle) ∧
    (∀ a rest, s.sc.announcements = a :: rest → ∃ t, exec .scTakesTimeAnnouncement s = .next t ∧
      t = { s with
        sc := { s.sc with lines := t.sc.lines, announcements := rest }, attnU := t.attnU, attnR := t.attnR } ∧
      evaluated t) ∧
    (∃ t, exec .dialTargetChange s = .next t ∧
      t = { s with sc := { s.sc with lines := t.sc.lines }, attnU := t.attnU, attnR := t.attnR } ∧ evaluated t)

/-! ### The slave clock lines (chapter 7) -/

/-- The timers of a line (R140 to R143, R147, R148, R150): a NORMAL sense lets the impulse run; an OPEN or SHORT one cuts
it uncounted into FAULT, LINE_FAULT beginning with its detail unless active; a completion counts or resolves and enters
GAP, ending LINE_FAULT; a gap's end evaluates; a retry's expiry starts an impulse again or waits another minute. A deferred
disabling or kind change is applied as the impulse ends, with the conditions its rule gives. That the marks are the elapsed
counts when the events are taken, and that an event which is not due does nothing, are the model's readings (log 27, log
2); a position 0 in the detail of a dial that is not set is its choice (log 19). -/
def Obligations.ImpulsesStepTheDial : Prop :=
  ∀ (s : State) (i : Fin 4), s.held = false →
    let l := s.line i
    let deferred := s.settings.lineEnable.get i = false ∨ s.settings.dialKind.get i ≠ l.kind
    (∀ c, l.state = .impulse c →
      (c.sensed = false → c.startMark + c.width / 2 ≤ s.tb.elapsed →
        exec (.impulseSense i .normal) s = .next (s.setLine i { l with
          lastSense := some .normal, state := .impulse { c with sensed := true } }).settle ∧
        ∀ sense, sense ≠ .normal →
          let faulted := s.withCause l.conds .lineFault (.lineFault sense c.polarity c.form (match l.dial with
            | .at position _ => position
            | .unset _ => 0
            | .unknown => 0))
          let after := s.lineAfter i { l with lastSense := some sense, conds := faulted } (.fault (s.tb.elapsed + 60000))
          exec (.impulseSense i sense) s = .next (s.setLine i after).settle ∧
            (after.conds.active .lineFault = true ↔ ¬ deferred)) ∧
      (c.sensed = true ∨ s.tb.elapsed < c.startMark + c.width / 2 →
        ∀ sense, exec (.impulseSense i sense) s = .next s.settle) ∧
      (c.sensed = true → c.startMark + c.width ≤ s.tb.elapsed →
        (∀ position last, c.form = .counted → l.dial = .at position last →
          let after := s.lineAfter i { l with
            dial := .at ((position + 1) % l.kind.positions) c.polarity
            conds := l.conds.without .lineFault } (.gap s.tb.elapsed)
          exec (.impulseCompletion i) s = .next (s.setLine i after).settle ∧ after.conds.active .lineFault = false) ∧
        (c.form = .resolving →
          let after := s.lineAfter i { l with resolving := false, conds := l.conds.without .lineFault } (.gap s.tb.elapsed)
          exec (.impulseCompletion i) s = .next (s.setLine i after).settle ∧ after.conds.active .lineFault = false)) ∧
      (c.sensed = false ∨ s.tb.elapsed < c.startMark + c.width → exec (.impulseCompletion i) s = .next s.settle)) ∧
    (∀ completion position last, l.state = .gap completion → l.dial = .at position last →
      let stop := (completion : Int) + s.settings.gap.get i
      (stop ≤ (s.tb.elapsed : Int) → exec (.gapEnd i) s =
        .next (s.setLine i { l with state := s.evaluatedLine i position last }).settle) ∧
      ((s.tb.elapsed : Int) < stop → exec (.gapEnd i) s = .next s.settle)) ∧
    (∀ retry position last, l.state = .fault retry → l.dial = .at position last →
      (retry ≤ s.tb.elapsed → (∃ c, s.evaluatedLine i position last = .impulse c) →
        exec (.faultRetryExpiry i) s =
          .next (s.setLine i { l with state := s.evaluatedLine i position last }).settle) ∧
      (retry ≤ s.tb.elapsed → (∀ c, s.evaluatedLine i position last ≠ .impulse c) →
        exec (.faultRetryExpiry i) s = .next (s.setLine i { l with state := .fault (retry + 60000) }).settle) ∧
      (s.tb.elapsed < retry → exec (.faultRetryExpiry i) s = .next s.settle))

/-- DIAL SET (R144): its three checks in order; accepted, it sets the position, the polarity when one is given, and
clears the resolving flag; then UNSET ends DIAL_UNSET and evaluates, IDLE and WAIT evaluate, and the other states stand.
A polarity byte that names none fails with the range check by the model's choice (log 16). -/
def Obligations.DialSetDeclaresTheDial : Prop :=
  ∀ (f : ReqFrame) (s : State), s.admits .dialSet f →
    let position := field f.body 1 2
    let given := (byteAt f.body 3).toNat
    (4 ≤ (byteAt f.body 0).toNat → s.repliesOnly .dialSet f .outOfRange .none) ∧
    ∀ i : Fin 4, (byteAt f.body 0).toNat = i.val →
      let l := s.line i
      (l.kind.positions ≤ position ∨ 2 < given → s.repliesOnly .dialSet f .outOfRange .none) ∧
      (∀ c, position < l.kind.positions → given ≤ 2 → l.state = .impulse c →
        s.repliesOnly .dialSet f .lineBusy .none) ∧
      (position < l.kind.positions → (∀ c, l.state ≠ .impulse c) → given = 0 → (∀ n p, l.dial ≠ .at n p) →
        s.repliesOnly .dialSet f .outOfRange .none) ∧
      (∀ polarity, position < l.kind.positions → (∀ c, l.state ≠ .impulse c) →
        (given = 0 ∧ ∃ n, l.dial = .at n polarity) ∨ (given = 1 ∧ polarity = .positive) ∨
          (given = 2 ∧ polarity = .negative) →
        let set := s.setLine i { l with dial := .at position polarity, resolving := false }
        let evaluated := fun t : State => t.setLine i { t.line i with state := set.evaluatedLine i position polarity }
        (l.state = .unset → exec (.dialSet f) s =
          .next ((evaluated (set.endCause (.line i) .dialUnset)).withReply .dialSet f .ok .none).settle) ∧
        (l.state = .idle ∨ (∃ why, l.state = .wait why) → exec (.dialSet f) s =
          .next ((evaluated set).withReply .dialSet f .ok .none).settle) ∧
        (l.state = .off ∨ (∃ m, l.state = .gap m) ∨ (∃ m, l.state = .fault m) → exec (.dialSet f) s =
          .next (set.withReply .dialSet f .ok .none).settle))

/-- The owners apply a changed setting (R12, R18, R34, R35, R141, R146 to R148), the settings already holding the new
value. A link disabled in UP makes a marker of cause DISABLED, its gap start the last valid telegram, placed at the tail or
pending at a full queue. That an active DIAL_UNSET is not raised again is the model's reading (log 25). -/
def Obligations.ChangedSettingsReachTheirOwners : Prop :=
  ∀ s : State,
    (∀ item n, item ∈ [SettingItem.linkLatency, .lostLimit, .armingLead, .retention, .impulseWidth, .classPriority,
      .classLine, .watchAttention] → s.handOver item n = s) ∧
    (∀ item n, item = SettingItem.boundaryHour ∨ item = .civilOffset → s.handOver item n =
      { s with sc := { s.sc with announcements := s.sc.announcements ++ [ScAnnouncement.civil s.civilMs] } }) ∧
    (s.held = false → exec .holdoverLimitExpiry s = .next (s.handOver .holdoverLimit 0).settle) ∧
    ∀ i : Fin 4,
      let l := s.line i
      let resting := l.state = .idle ∨ ∃ why, l.state = .wait why
      (s.held = false → exec (.silenceExpiry i) s = .next (s.handOver .silenceLimit i.val).settle) ∧
      (s.held = false → exec (.gapEnd i) s = .next (s.handOver .gap i.val).settle) ∧
      (∀ position last, resting → l.dial = .at position last → s.handOver .holdWindow i.val =
        s.setLine i { l with state := s.evaluatedLine i position last }) ∧
      (¬ resting → s.handOver .holdWindow i.val = s) ∧
      (s.settings.linkEnable.get i = true → s.handOver .linkEnable i.val =
        s.setLink i { s.link i with framing := .hunting, state := .quiet, silenceStart := none }) ∧
      (∀ last, s.settings.linkEnable.get i = false → (s.link i).state = .up → (s.link i).lastValid = some last →
        let stopped : Link := { s.link i with framing := .hunting, silenceStart := none, state := .quiet }
        ((s.link i).queue.length < 64 → s.handOver .linkEnable i.val =
          s.setLink i { stopped with queue := (s.link i).queue ++ [.marker ⟨last, .disabled, i⟩] }) ∧
        (64 ≤ (s.link i).queue.length → s.handOver .linkEnable i.val =
          s.setLink i { stopped with pendingMarker := some ⟨last, .disabled, i⟩ })) ∧
      (s.settings.linkEnable.get i = false → (s.link i).state = .quiet → s.handOver .linkEnable i.val =
        s.setLink i { s.link i with framing := .hunting, silenceStart := none }) ∧
      (s.settings.linkEnable.get i = false → (s.link i).state = .gap → s.handOver .linkEnable i.val =
        (s.setLink i { s.link i with framing := .hunting, silenceStart := none, state := .quiet }).endCause (.link i)
          .linkGap) ∧
      (s.settings.lineEnable.get i = true → l.enabled = true → s.handOver .lineEnable i.val = s) ∧
      (∀ position last, s.settings.lineEnable.get i = true → l.enabled = false → l.dial = .at position last →
        s.handOver .lineEnable i.val =
          s.setLine i { l with enabled := true, state := s.evaluatedLine i position last }) ∧
      (s.settings.lineEnable.get i = true → l.enabled = false → (∀ n p, l.dial ≠ .at n p) →
        s.handOver .lineEnable i.val = (s.setLine i { l with enabled := true, state := .unset }).beginCause (.line i)
          .dialUnset (.dialUnset l.kind .enabled)) ∧
      (s.settings.lineEnable.get i = false → l.enabled = false ∨ (∃ c, l.state = .impulse c) →
        s.handOver .lineEnable i.val = s) ∧
      (s.settings.lineEnable.get i = false → l.enabled = true → (∀ c, l.state ≠ .impulse c) →
        s.handOver .lineEnable i.val = ((s.setLine i { l with enabled := false, state := .off }).endCause (.line i)
          .lineFault).endCause (.line i) .dialUnset) ∧
      (s.settings.dialKind.get i = l.kind ∨ (∃ c, l.state = .impulse c) → s.handOver .dialKind i.val = s) ∧
      (s.settings.dialKind.get i ≠ l.kind → (∀ c, l.state ≠ .impulse c) →
        let changed := (s.setLine i { l with
          kind := s.settings.dialKind.get i
          dial := l.dial.forget
          resolving := false
          state := if l.enabled = true then LineState.unset else LineState.off }).endCause (.line i) .lineFault
        s.handOver .dialKind i.val =
          if l.enabled = true then
            changed.beginCause (.line i) .dialUnset (.dialUnset (s.settings.dialKind.get i) .kindChange)
          else changed)

/-! ### Conditions and attention (chapter 8) -/

/-- The transitions of a condition (Table 8-1a, R154 to R156): every row for a sustained class, a momentary raise, and
a cause that begins and ends in one event; the conditions of the other classes stand. A report at a subject makes exactly
its transition in the condition set of that subject's record, dated as the part stands, and marks the watch slots of an
object or a path changed (R153, R157); a cause begins only where it is not active, and ends only where it is. -/
def Obligations.ConditionsFollowTheirTransitions : Prop :=
  (∀ (cs : CondSet) (c : Machine.Class),
    (cs.find c = none ↔ ∀ x ∈ cs, x.cls ≠ c) ∧ (∀ x, cs.find c = some x → x ∈ cs ∧ x.cls = c) ∧
    (cs.active c = true ↔ ∃ x, cs.find c = some x ∧ x.state ≠ .clearUnack)) ∧
  (∀ (s : State) (c : Machine.Class) (detail : Detail),
    let now : Date := ⟨s.tb.stationUs / 1000, s.tb.discipline.quality, .observed⟩
    let reports := fun (x : Subject) (cs : CondSet) (put : CondSet → State) =>
      s.causeBegins x c detail = put (cs.begun c now s.tb.elapsed detail) ∧
      s.raiseMomentary x c detail = put (cs.raised c now s.tb.elapsed detail) ∧
      s.acknowledge x c = put (cs.acknowledged c) ∧
      (cs.active c = false → s.beginCause x c detail = s.causeBegins x c detail ∧ s.endCause x c = s) ∧
      (cs.active c = true → s.beginCause x c detail = s ∧ s.endCause x c = put (cs.ended c))
    let marked := fun w : Watched => s.watch.map fun x : WatchSlot =>
      if x.subject = w then { x with changed := true } else x
    reports .timeBase s.tb.conds (fun cs => { s with tb := { s.tb with conds := cs } }) ∧
    (∀ i : Fin 4, reports (.link i) (s.links.get i).conds fun cs =>
      { s with links := s.links.set i { s.links.get i with conds := cs } }) ∧
    (∀ i : Fin 4, reports (.line i) (s.sc.lines.get i).conds fun cs =>
      { s with sc := { s.sc with lines := s.sc.lines.set i { s.sc.lines.get i with conds := cs } } }) ∧
    (∀ n r, s.objects.get n = some r → reports (.object n) r.conds fun cs =>
      { s with objects := s.objects.set n { r with conds := cs }, watch := marked (.object n) }) ∧
    ∀ n p, s.tc.paths.get n = some p → reports (.path n) p.conds fun cs =>
      { s with tc := { s.tc with paths := s.tc.paths.set n { p with conds := cs } }, watch := marked (.path n) }) ∧
  ∀ (cs : CondSet) (c : Machine.Class) (date : Date) (mark : Nat) (detail : Detail),
    let begun := cs.begun c date mark detail
    let raised := cs.raised c date mark detail
    (∀ d, d ≠ c → begun.find d = cs.find d ∧ (cs.ended c).find d = cs.find d ∧ raised.find d = cs.find d ∧
      (cs.acknowledged c).find d = cs.find d) ∧
    (cs.find c = none → begun.find c = some ⟨c, .activeUnack, date, mark, detail, 1⟩ ∧
      raised.find c = some ⟨c, .clearUnack, date, mark, detail, 1⟩ ∧ (cs.ended c).find c = none ∧
      (cs.acknowledged c).find c = none) ∧
    (∀ x, cs.find c = some x → x.state = .activeAck →
      begun.find c = some ⟨c, .activeUnack, date, mark, detail, 1⟩ ∧ (cs.ended c).find c = none ∧
        (cs.acknowledged c).find c = some x) ∧
    (∀ x, cs.find c = some x → x.state = .clearUnack →
      begun.find c = some ⟨c, .activeUnack, date, mark, detail, min 255 (x.count + 1)⟩ ∧
        raised.find c = some ⟨c, .clearUnack, date, mark, detail, min 255 (x.count + 1)⟩ ∧
        (cs.ended c).find c = some x ∧ (cs.acknowledged c).find c = none) ∧
    (∀ x, cs.find c = some x → x.state = .activeUnack →
      begun.find c = some ⟨c, .activeUnack, date, mark, detail, min 255 (x.count + 1)⟩ ∧
        (cs.ended c).find c = some { x with state := .clearUnack } ∧
        (cs.acknowledged c).find c = some { x with state := .activeAck }) ∧
    ∃ x, (begun.ended c).find c = some x ∧ x.state = .clearUnack ∧ x.raised = date ∧ x.mark = mark ∧
      x.detail = detail ∧ x.count = match cs.find c with
        | none => 1
        | some y => if y.state = .activeAck then 1 else min 255 (y.count + 1)

/-- NEXT CONDITION (R160, R161): among the unacknowledged conditions of a class that is not silent, the one of highest
priority, then of lowest raised mark, then first in the order of the subjects and classes is given, with the count of the
others; with ACKNOWLEDGE it is acknowledged in the same event. With none it is answered NO_SUCH.
ACK CONDITION (R162): its four checks in order, and on success the acknowledgement with the state after it. -/
def Obligations.ConditionsAreSelectedAndAcknowledged : Prop :=
  (∀ (f : ReqFrame) (s : State), s.admits .nextCondition f →
    let considered := fun x : Subject × Condition =>
      x.2.state ≠ .activeAck ∧ 1 ≤ s.settings.priority x.2.cls
    ((∀ x ∈ s.conditions, ¬ considered x) → s.repliesOnly .nextCondition f .noSuch .none) ∧
    ∀ before subject c after, s.conditions = before ++ (subject, c) :: after → considered (subject, c) →
      (∀ x ∈ before, considered x → s.settings.priority x.2.cls < s.settings.priority c.cls ∨
        (s.settings.priority x.2.cls = s.settings.priority c.cls ∧ c.mark < x.2.mark)) →
      (∀ x ∈ after, considered x → s.settings.priority x.2.cls < s.settings.priority c.cls ∨
        (s.settings.priority x.2.cls = s.settings.priority c.cls ∧ c.mark ≤ x.2.mark)) →
      let others := ((before ++ after).filter fun x => decide (considered x)).length
      let view : ConditionView := ⟨subject, c, s.settings.priority c.cls, s.settings.line c.cls⟩
      let after := if c.state = .activeUnack then some CondState.activeAck else none
      ((byteAt f.body 0).toNat = 0 → s.repliesOnly .nextCondition f .ok (.condition view others none)) ∧
      ((byteAt f.body 0).toNat = 1 → (s.condsOf subject).find c.cls = some c → exec (.nextCondition f) s =
        .next ((s.acknowledge subject c.cls).withReply .nextCondition f .ok
          (.condition view others (some after))).settle)) ∧
  ∀ (f : ReqFrame) (s : State), s.admits .ackCondition f →
    let kind := (byteAt f.body 0).toNat
    let number := field f.body 1 2
    let code := (byteAt f.body 3).toNat
    let marked := (byteAt f.body 4).toNat ≠ 0
    let mark := field f.body 5 6
    let named := (kind = 0 ∧ number = 0) ∨ (kind = 1 ∧ number ≤ 3) ∨ (kind = 2 ∧ number ≤ 3) ∨
      (kind = 3 ∧ 1 ≤ number ∧ number ≤ 4095) ∨ (kind = 4 ∧ 1 ≤ number)
    (¬ named ∨ Machine.Class.ofCode code = none → s.repliesOnly .ackCondition f .outOfRange .none) ∧
    ∀ (subject : Subject) (c : Machine.Class), named → subject.kindCode = kind → subject.number = number →
      Machine.Class.ofCode code = some c →
      let absent := (∃ n, subject = .object n ∧ s.object n = none) ∨ (∃ n, subject = .path n ∧ s.path n = none)
      (c.subjectCode ≠ kind → s.repliesOnly .ackCondition f .outOfRange .none) ∧
      (c.subjectCode = kind → absent ∨ (s.condsOf subject).find c = none →
        s.repliesOnly .ackCondition f .noSuch .none) ∧
      (∀ x, c.subjectCode = kind → (s.condsOf subject).find c = some x →
        (x.state = .activeAck ∨ (marked ∧ mark ≠ x.mark) → s.repliesOnly .ackCondition f .noSuch .none) ∧
        (x.state ≠ .activeAck → ¬ marked ∨ mark = x.mark → exec (.ackCondition f) s =
          .next ((s.acknowledge subject c).withReply .ackCondition f .ok
            (.acknowledged (if x.state = .activeUnack then some .activeAck else none))).settle))

/-! ### The Service Link's own requests (chapter 9) -/

/-- SET WATCH and READ WATCH (R176, R178): the checks of a SET WATCH; accepted, the slot takes the subject, marked changed
and without a retired note, and the summary is given; READ WATCH gives every slot with its subject's summary and clears
marks and notes. Left in work, it takes each slot in an event of its own, from slot 0 to slot 15, with the record as it stands
then. That a slot set to NONE has an absent summary in its answer, and that the event of the last slot makes the response
ready, are the model's choices (log 35, log 6). -/
def Obligations.WatchSlotsAreSetAndRead : Prop :=
  ∀ (f : ReqFrame) (s : State),
    (s.admits .setWatch f →
      let kind := (byteAt f.body 1).toNat
      let n := field f.body 2 2
      let named := kind = 0 ∨ (kind = 3 ∧ 1 ≤ n ∧ n ≤ 4095) ∨ (kind = 4 ∧ 1 ≤ n)
      (16 ≤ (byteAt f.body 0).toNat ∨ ¬ named → s.repliesOnly .setWatch f .outOfRange .none) ∧
      ∀ slot : Fin 16, (byteAt f.body 0).toNat = slot.val →
        let taken := fun (w : Watched) (summary : Option Summary) => exec (.setWatch f) s =
          .next ({ s with watch := s.watch.set slot ⟨w, true, none⟩ }.withReply .setWatch f .ok
            (.summary summary)).settle
        (kind = 0 → taken .none none) ∧
        (named → kind = 3 → s.object n = none → s.repliesOnly .setWatch f .noSuch .none) ∧
        (named → kind = 4 → s.path n = none → s.repliesOnly .setWatch f .noSuch .none) ∧
        (∀ r, named → kind = 3 → s.object n = some r → taken (.object n) (some (.object (r.summary n)))) ∧
        (∀ p, named → kind = 4 → s.path n = some p → taken (.path n) (some (.path (p.summary n))))) ∧
    (s.admits .readWatch f →
      ∃ slots, exec (.readWatch f) s =
        .next ({ s with watch := s.watch.map fun x : WatchSlot => { x with changed := false, retired := none } }.withReply
          .readWatch f .ok (.watch slots)).settle ∧ slots.length = 16 ∧
        ∀ k : Fin 16, (slots[k.val]?).map WatchView.slot = some (s.watch.get k) ∧
          ((s.watch.get k).subject = .none → (slots[k.val]?).map WatchView.summary = some none) ∧
          (∀ n r, (s.watch.get k).subject = .object n → s.object n = some r →
            (slots[k.val]?).map WatchView.summary = some (some (.object (r.summary n)))) ∧
          (∀ n p, (s.watch.get k).subject = .path n → s.path n = some p →
            (slots[k.val]?).map WatchView.summary = some (some (.path (p.summary n))))) ∧
    ∀ lost, s.held = false → f.phase = .service → frameOk .readWatch (collect f.toFrame) = true →
      let takes := fun (taken : List WatchView) (k : Fin 16) =>
        let x := s.watch.get k
        let summary := match x.subject with
          | .none => none
          | .object n => (s.object n).map fun r => Summary.object (r.summary n)
          | .path n => (s.path n).map fun p => Summary.path (p.summary n)
        let slots := taken ++ [⟨x, summary⟩]
        let after := fun transaction : Transaction => exec (.readWatch f) s = .next { s with
          watch := s.watch.set k { x with changed := false, retired := none }
          sl := { s.sl with transaction := transaction } }.settle
        (∀ next : Fin 16, next.val = k.val + 1 → after (.inWork (.gathering (collect f.toFrame) (.watch slots next)) lost)) ∧
        (k.val = 15 → after (.pending ⟨0x61, f.tag, .ok, lost, .watch slots⟩))
      (s.sl.transaction = .inWork (.request .readWatch (collect f.toFrame)) lost → takes [] 0) ∧
      ∀ taken k, s.sl.transaction = .inWork (.gathering (collect f.toFrame) (.watch taken k)) lost → takes taken k

/-- GET STATUS, CLEAR EDIT FAULT and UNLOCK CAPTURE (R179, R175, R39): the status as it stands, after which the completion
counts as read; the latch returned and emptied; a link's capture unlocked and emptied. Left in work, GET STATUS asks each
owner in an event of its own, and a completion that ended after the slot was taken stays unread. The order of the owners is
the model's choice (log 6). -/
def Obligations.StatusLatchAndCaptureAreServed : Prop :=
  ∀ (f : ReqFrame) (s : State),
    (s.admits .getStatus f → exec (.getStatus f) s =
      .next ({ s with sl := { s.sl with
        slot := match s.sl.slot with
          | .done c => .done { c with unread := false }
          | .empty => .empty
          | .inFlight kind tag accepted => .inFlight kind tag accepted } }.withReply .getStatus f .ok
            (.status ⟨0x4E48, 0x0028, 0x41, s.sl.slot, s.sl.latch, s.source, s.objects.length, s.tc.paths.length,
              s.tc.poolFree, s.tc.poolReserved, s.tb.discipline, s.tb.timeValid⟩)).settle) ∧
    (∀ lost, s.held = false → f.phase = .service → frameOk .getStatus (collect f.toFrame) = true →
      let asked := fun (v : StatusView) (next : StatusOwner) => exec (.getStatus f) s = .next { s with
        sl := { s.sl with transaction := .inWork (.gathering (collect f.toFrame) (.status v next)) lost } }.settle
      (s.sl.transaction = .inWork (.request .getStatus (collect f.toFrame)) lost →
        ∃ v, asked v .settingsStore ∧ v.vendor = 0x4E48 ∧ v.part = 0x0028 ∧ v.issue = 0x41 ∧ v.slot = s.sl.slot ∧
          v.latch = s.sl.latch) ∧
      ∀ v owner, s.sl.transaction = .inWork (.gathering (collect f.toFrame) (.status v owner)) lost →
        (owner = .serviceLink → asked { v with slot := s.sl.slot, latch := s.sl.latch } .settingsStore) ∧
        (owner = .settingsStore → asked { v with source := s.source } .objectTable) ∧
        (owner = .objectTable → asked { v with objects := s.objects.length } .pathStore) ∧
        (owner = .pathStore → asked { v with paths := s.tc.paths.length } .pool) ∧
        (owner = .pool → asked { v with poolFree := s.tc.poolFree, poolReserved := s.tc.poolReserved } .timeBase) ∧
        (owner = .timeBase → exec (.getStatus f) s = .next { s with
          sl := { s.sl with
            slot := match v.slot, s.sl.slot with
              | .done _, .done c => .done { c with unread := false }
              | _, present => present
            transaction := .pending ⟨0x62, f.tag, .ok, lost,
              .status { v with discipline := s.tb.discipline, timeValid := s.tb.timeValid }⟩ } }.settle)) ∧
    (s.admits .clearEditFault f → exec (.clearEditFault f) s =
      .next ({ s with sl := { s.sl with latch := none } }.withReply .clearEditFault f .ok (.latch s.sl.latch)).settle) ∧
    (s.admits .unlockCapture f →
      (4 ≤ (byteAt f.body 0).toNat → s.repliesOnly .unlockCapture f .outOfRange .none) ∧
      ∀ i : Fin 4, (byteAt f.body 0).toNat = i.val → exec (.unlockCapture f) s =
        .next ((s.setLink i { s.link i with capture := none, further := false }).withReply .unlockCapture f .ok
          .none).settle)

/-! ### Settings (chapter 10) and resets -/

/-- SET SETTING (R182): its checks in order; a value in range is written and handed over when it differs, a numeric one
outside is clamped first and answered CLAMPED. The items, their instances, ranges, names and defaults are those of Tables
10-1 and 8-2 under the codes of 11.5, and each is read from its own working setting. A setting written reads back, and no
other one changes. -/
def Obligations.SetSettingWritesOneSetting : Prop :=
  (∀ (f : ReqFrame) (s : State), s.admits .setSetting f →
    let n := (byteAt f.body 1).toNat
    let v := signed16 (field f.body 2 2)
    (SettingItem.ofCode (byteAt f.body 0).toNat = none → s.repliesOnly .setSetting f .outOfRange .none) ∧
    ∀ item, SettingItem.ofCode (byteAt f.body 0).toNat = some item →
      let applied := fun (x : Int) (status : Status) =>
        (s.settings.read item n = x → s.repliesOnly .setSetting f status (.value x)) ∧
        (s.settings.read item n ≠ x → exec (.setSetting f) s =
          .next ((({ s with settings := s.settings.write item n x }).handOver item n).withReply .setSetting f status
            (.value x)).settle)
      let within := item.range.1 ≤ v ∧ v ≤ item.range.2
      (n ∉ item.numbers → s.repliesOnly .setSetting f .outOfRange .none) ∧
      (n ∈ item.numbers → ¬ within → item.named = true → s.repliesOnly .setSetting f .outOfRange .none) ∧
      (n ∈ item.numbers → within → applied v .ok) ∧
      (n ∈ item.numbers → v < item.range.1 → item.named = false → applied item.range.1 .clamped) ∧
      (n ∈ item.numbers → item.range.2 < v → item.named = false → applied item.range.2 .clamped)) ∧
  (let one4 := [0, 1, 2, 3]
    let classes := (List.range 21).map (· + 1)
    let table : List (List Nat × Int × Int × Bool × List Int) := [
      ([0], 0, 23, false, [2]), ([0], -720, 720, false, [0]), ([0], 1, 1440, false, [240]),
      (one4, 0, 1, true, [1, 1, 1, 1]), (one4, 0, 2000, false, [0, 0, 0, 0]), (one4, 2, 30, false, [5, 5, 5, 5]),
      ([0], 5, 240, false, [60]), ([0], 0, 120, false, [30]), ([0], 0, 1440, false, [120]),
      (one4, 0, 1, true, [0, 0, 0, 0]), (one4, 0, 1, true, [0, 0, 0, 0]), (one4, 100, 1000, false, [300, 300, 300, 300]),
      (one4, 300, 5000, false, [700, 700, 700, 700]), (one4, 0, 120, false, [60, 60, 60, 60]),
      (classes, 0, 15, false, [6, 10, 5, 12, 4, 13, 14, 14, 15, 8, 12, 15, 7, 3, 3, 6, 7, 4, 9, 5, 2]),
      (classes, 1, 2, true, [2, 1, 2, 1, 2, 1, 1, 1, 1, 2, 1, 1, 2, 2, 2, 2, 2, 2, 1, 2, 2]), ([0], 0, 1, true, [1])]
    (∀ code, SettingItem.ofCode code = none ↔ code = 0 ∨ 17 < code) ∧
    ∀ (k : Fin 17) (numbers : List Nat) (low high : Int) (named : Bool) (defaults : List Int),
      table[k.val]? = some (numbers, low, high, named, defaults) →
      ∃ item, SettingItem.ofCode (k.val + 1) = some item ∧ item.numbers = numbers ∧ item.range = (low, high) ∧
        item.named = named ∧ numbers.map (Settings.default.read item) = defaults) ∧
  (∀ w : Settings,
    (w.inRange = true ↔ ∀ item : SettingItem, ∀ n ∈ item.numbers, item.range.1 ≤ w.read item n ∧
      w.read item n ≤ item.range.2) ∧
    w.read .boundaryHour 0 = w.boundaryHour ∧ w.read .civilOffset 0 = w.civilOffset ∧
    w.read .holdoverLimit 0 = w.holdoverLimit ∧ w.read .lostLimit 0 = w.lostLimit ∧
    w.read .armingLead 0 = w.armingLead ∧ w.read .retention 0 = w.retention ∧
    w.read .watchAttention 0 = (if w.watchAttention = true then 1 else 0) ∧
    (∀ i : Fin 4, w.read .linkEnable i = (if w.linkEnable.get i = true then 1 else 0) ∧
      w.read .linkLatency i = w.linkLatency.get i ∧ w.read .silenceLimit i = w.silenceLimit.get i ∧
      w.read .lineEnable i = (if w.lineEnable.get i = true then 1 else 0) ∧
      w.read .dialKind i = (if w.dialKind.get i = .halfMinute then 1 else 0) ∧
      w.read .impulseWidth i = w.impulseWidth.get i ∧ w.read .gap i = w.gap.get i ∧
      w.read .holdWindow i = w.holdWindow.get i) ∧
    ∀ k : Fin 21, w.read .classPriority (k + 1) = w.classPriority.get k ∧
      w.read .classLine (k + 1) = if w.classLine.get k = .urgent then 1 else 2) ∧
  ∀ (w : Settings) (item : SettingItem) (n : Nat) (v : Int), n ∈ item.numbers → item.range.1 ≤ v → v ≤ item.range.2 →
    (w.write item n v).read item n = v ∧
    ∀ other k, k ∈ other.numbers → (other, k) ≠ (item, n) → (w.write item n v).read other k = w.read other k

/-- SAVE SETTINGS (R184): the snapshot and its check are taken, the stored copy turns INVALID, the slot IN_FLIGHT; the
write's end makes it VALID with OK, or leaves it INVALID with STORE_FAILED. Saved settings load back as they were (R185).
-/
def Obligations.SavedSettingsLoadBack : Prop :=
  (∀ (f : ReqFrame) (s : State), s.admits .saveSettings f → exec (.saveSettings f) s =
    .next ({ s with
      saving := some ⟨s.settings.image, imageCheck s.settings.image⟩
      copy := .invalid
      sl := { s.sl with
        slot := .inFlight .saveSettings f.tag ⟨s.tb.stationUs / 1000, s.tb.discipline.quality, .observed⟩ } }.withReply
          .saveSettings f .started (.started (match s.sl.slot with
            | .done c => if c.unread then some c else none
            | .empty => none
            | .inFlight _ _ _ => none))).settle) ∧
  (∀ (s : State) (snap : Snapshot) (kind : LongOp) (tag : Byte) (accepted : Date), s.held = false →
    s.saving = some snap → s.sl.slot = .inFlight kind tag accepted →
    let done := fun status : Status => Slot.done ⟨kind, tag, accepted,
      ⟨s.tb.stationUs / 1000, s.tb.discipline.quality, .observed⟩, status, .save snap.check, true⟩
    exec (.saveWriteComplete true) s = .next ({ s with
      saving := none, copy := .valid snap.image snap.check, sl := { s.sl with slot := done .ok } }).settle ∧
    exec (.saveWriteComplete false) s = .next ({ s with
      saving := none, copy := .invalid, sl := { s.sl with slot := done .storeFailed } }).settle) ∧
  (∀ (w : Settings) (check : BitVec 16), w.inRange = true →
    (StoredCopy.valid w.image check).load = (w, .stored)) ∧
  StoredCopy.blank.load = (Settings.default, .defaults) ∧ StoredCopy.invalid.load = (Settings.default, .defaults)

/-- Power-on and the taking of RESTART_N (R23, R24, R42, R60, R109, R151, R152, R166, R180, R184): what each clears,
what it keeps, and the line caught in an impulse. The model's choices are that such a line stands IDLE while RESTART_N
is held (log 8), that the settings stand and the service state is SUSPENDED then (log 38, log 39), that power-on keeps
the queue and the count of free values and lets the part run whatever the level of RESTART_N (log 24), that the bytes
shifted out are empty after both (log 6), and that the fraction and the places in the two running milliseconds are 0 at
power-on (log 3). Its readings are that the taking while RESTART_N is held already does nothing (log 2) and that
announcements in flight are dropped (log 22). -/
def Obligations.ResetsClearAndKeep : Prop :=
  ∀ s : State,
    (∃ t, exec .powerOn s = .next t ∧
      t = { State.reset with
        copy := s.copy, settings := s.copy.load.1, source := s.copy.load.2, sc := ⟨t.sc.lines, []⟩
        attnU := t.attnU, attnR := t.attnR, freeCount := s.freeCount, pending := s.pending } ∧
      ∀ i : Fin 4,
        let enabled := t.settings.lineEnable.get i
        ∃ conds, t.line i = ⟨enabled, t.settings.dialKind.get i, .unknown, false,
          if enabled = true then .unset else .off, none, conds⟩ ∧
          (enabled = false → conds = []) ∧
          (enabled = true → conds = [⟨.dialUnset, .activeUnack, ⟨0, .unsync, .observed⟩, 0,
            .dialUnset (t.settings.dialKind.get i) .powerOn, 1⟩])) ∧
    (s.held = true → exec .restartTaken s = .next s.settle) ∧
    (s.held = false → ∃ t, exec .restartTaken s = .next t ∧
      let following := s.tb.discipline = .locked ∨ s.tb.discipline = .acquire
      t = { s with
        tb := { s.tb with
          good := 0, outliers := 0, gapStart := none, heldMsg := none, precedingEdge := none, refRx := none
          discipline := if following then .holdover else s.tb.discipline
          holdoverStart := if following then some s.tb.elapsed else s.tb.holdoverStart }
        links := t.links, objects := [], berthEvents := [], answers := []
        tc := ⟨[], 16384, 0, none, none, .suspended, []⟩, sc := ⟨t.sc.lines, []⟩
        sl := ⟨.closed, [], none, .empty⟩, watch := Vec.fill 16 ⟨.none, false, none⟩
        saving := none, held := true, attnU := false, attnR := false } ∧
      ∀ i : Fin 4,
        t.link i = ⟨.hunting, .quiet, none, [], none, none, none, none, false, (s.link i).conds⟩ ∧
        (∀ c position last, (s.line i).state = .impulse c → c.form = .counted →
          (s.line i).dial = .at position last → t.line i = { s.line i with
            dial := .at ((position + 1) % (s.line i).kind.positions) c.polarity, resolving := true, state := .idle }) ∧
        (∀ c, (s.line i).state = .impulse c → c.form = .resolving → t.line i = { s.line i with state := .idle }) ∧
        (∀ m, (s.line i).state = .gap m ∨ (s.line i).state = .fault m →
          t.line i = { s.line i with state := .idle }) ∧
        ((s.line i).state = .off ∨ (s.line i).state = .unset ∨ (s.line i).state = .idle ∨
          (∃ why, (s.line i).state = .wait why) → t.line i = s.line i))

/-- The release of RESTART_N (R24, R112, R152, R166, R185): the settings are loaded, the holdover timer is compared
with the limit, and the causes of the Time Base, the links and the lines are brought to what the blocks present: one
presented stands in ACTIVE_UNACK with the restart's date, mark and detail, an active one not presented ends, and the other
conditions stand. A limit already reached is announced to both receivers (R12, R13), and civil time where the loaded hour
or offset differs (R18); that no other load announces it is the model's reading (log 28). The reason given with
DIAL_UNSET, and that a release while RESTART_N is not held does nothing, are the model's readings (log 25, log 2). -/
def Obligations.ReleaseLoadsAndPresents : Prop :=
  ∀ s : State,
    (s.held = false → exec .restartRelease s = .next s.settle) ∧
    (s.held = true → ∃ t, exec .restartRelease s = .next t ∧
      let loaded := s.copy.load.1
      let date : Date := ⟨s.tb.stationUs / 1000, t.tb.discipline.quality, .observed⟩
      let presented := fun (c : Machine.Class) (on : Bool) (detail : Detail) (kept : CondSet) =>
        if on then kept.begun c date s.tb.elapsed detail else kept.without c
      let drift := decide (t.tb.discipline = .drift)
      let lost := decide (t.tb.discipline = .holdover ∨ t.tb.discipline = .drift)
      let reached := s.tb.discipline = .holdover ∧ ∃ start, s.tb.holdoverStart = some start ∧
        loaded.holdoverLimit * 60000 ≤ ((s.tb.elapsed - start : Nat) : Int)
      let sent : List Announcement :=
        if t.tb.discipline = s.tb.discipline then [] else [⟨.unsync, s.tb.stationUs, none⟩]
      let civil : List ScAnnouncement :=
        if loaded.boundaryHour = s.settings.boundaryHour ∧ loaded.civilOffset = s.settings.civilOffset then []
        else [.civil t.civilMs]
      t = { s with
        held := false, settings := loaded, source := s.copy.load.2
        tb := { s.tb with discipline := t.tb.discipline, conds := t.tb.conds }
        links := t.links
        sc := ⟨t.sc.lines, s.sc.announcements ++ sent.map ScAnnouncement.time ++ civil⟩
        tc := { s.tc with service := t.tc.service, announcements := s.tc.announcements ++ sent }
        attnU := t.attnU, attnR := t.attnR } ∧
      (reached → t.tb.discipline = .drift) ∧ (¬ reached → t.tb.discipline = s.tb.discipline) ∧
      t.tb.conds = presented .holdoverExpired drift (.holdoverExpired loaded.holdoverLimit.toNat)
        (presented .referenceLost lost (.referenceLost (s.tb.lastPulse.map (· / 1000))) s.tb.conds) ∧
      (∀ c, c ≠ .referenceLost → c ≠ .holdoverExpired → t.tb.conds.find c = s.tb.conds.find c) ∧
      (lost = true → ∃ count, t.tb.conds.find .referenceLost = some ⟨.referenceLost, .activeUnack, date, s.tb.elapsed,
        .referenceLost (s.tb.lastPulse.map (· / 1000)), count⟩) ∧
      (drift = true → ∃ count, t.tb.conds.find .holdoverExpired = some ⟨.holdoverExpired, .activeUnack, date, s.tb.elapsed,
        .holdoverExpired loaded.holdoverLimit.toNat, count⟩) ∧
      (t.tb.conds.active .referenceLost = true ↔ t.tb.discipline = .holdover ∨ t.tb.discipline = .drift) ∧
      (t.tb.conds.active .holdoverExpired = true ↔ t.tb.discipline = .drift) ∧
      (t.tc.service = .suspended ↔ t.tb.discipline = .free ∨ t.tb.discipline = .drift) ∧
      ∀ i : Fin 4,
        t.link i = { s.link i with conds := (s.link i).conds.without .linkGap } ∧
        (t.link i).conds.active .linkGap = false ∧
        (∀ c, c ≠ .linkGap → (t.link i).conds.find c = (s.link i).conds.find c) ∧
        let l := s.line i
        let enabled := loaded.lineEnable.get i
        let kind := loaded.dialKind.get i
        let unset := fun reason : UnsetReason => (∃ count, (t.line i).conds.find .dialUnset =
          some ⟨.dialUnset, .activeUnack, date, s.tb.elapsed, .dialUnset kind reason, count⟩)
        (t.line i).conds.active .lineFault = false ∧
        let placed := match l.dial with
          | .at _ _ => decide (kind = l.kind)
          | .unset _ => false
          | .unknown => false
        (t.line i).conds = presented .dialUnset (enabled && !placed)
          (.dialUnset kind (if kind = l.kind then .restart else .kindChange)) (l.conds.without .lineFault) ∧
        (∀ position last, kind = l.kind → enabled = true → l.dial = .at position last →
          t.line i = { l with
            enabled := true, state := t.evaluatedLine i position last, conds := (t.line i).conds } ∧
          (t.line i).conds.active .dialUnset = false) ∧
        (kind = l.kind → enabled = true → (∀ n p, l.dial ≠ .at n p) →
          t.line i = { l with enabled := true, state := .unset, conds := (t.line i).conds } ∧ unset .restart) ∧
        (kind ≠ l.kind → enabled = true → t.line i = { l with
          enabled := true, kind := kind, dial := l.dial.forget, resolving := false, state := .unset
          conds := (t.line i).conds } ∧ unset .kindChange) ∧
        (enabled = false → (t.line i).conds.active .dialUnset = false ∧
          t.line i = { l with
            enabled := false, kind := kind, state := .off, conds := (t.line i).conds
            dial := if kind = l.kind then l.dial else l.dial.forget
            resolving := if kind = l.kind then l.resolving else false }))
end

