-- ==== Sys2Proof/Laws/Store.lean ====
section
/-! SUPPORT. What reading gives after each update of the two containers, and that every update of a store keeps its
numbers strictly rising. -/

namespace Sys2Proof.Machine

/-! ### Vectors -/

section Vec

variable {α β : Type} {n : Nat}

@[simp] theorem Vec.get_set_self (v : Vec α n) (i : Fin n) (x : α) : (v.set i x).get i = x := by
  simp [Vec.get, Vec.set]

theorem Vec.get_set_ne (v : Vec α n) {i j : Fin n} (x : α) (h : i ≠ j) : (v.set i x).get j = v.get j := by
  have : i.val ≠ j.val := fun e => h (Fin.ext e)
  simp [Vec.get, Vec.set, List.getElem_set_ne this]

theorem Vec.get_set (v : Vec α n) (i j : Fin n) (x : α) : (v.set i x).get j = if i = j then x else v.get j := by
  by_cases h : i = j
  · subst h; simp
  · rw [Vec.get_set_ne v x h, if_neg h]

@[simp] theorem Vec.set_set (v : Vec α n) (i : Fin n) (x y : α) : (v.set i x).set i y = v.set i y := by
  simp [Vec.set]

@[simp] theorem Vec.set_get (v : Vec α n) (i : Fin n) : v.set i (v.get i) = v := by
  simp [Vec.get, Vec.set]

@[simp] theorem Vec.get_map (f : α → β) (v : Vec α n) (i : Fin n) : (v.map f).get i = f (v.get i) := by
  simp [Vec.get, Vec.map]

@[simp] theorem Vec.get_fill (x : α) (i : Fin n) : (Vec.fill n x).get i = x := by
  simp [Vec.get, Vec.fill]

theorem Vec.ext_get {v w : Vec α n} (h : ∀ i, v.get i = w.get i) : v = w := by
  obtain ⟨l, hl⟩ := v
  obtain ⟨m, hm⟩ := w
  refine Subtype.ext (List.ext_getElem (hl.trans hm.symm) fun k hk _ => ?_)
  exact h ⟨k, hl ▸ hk⟩

end Vec

/-! ### Stores -/

section Store

variable {α : Type} {m : Store α} {n k : Nat} {v : α}

@[simp] theorem Store.get_set_self (m : Store α) (n : Nat) (v : α) : (m.set n v).get n = some v := by
  induction m with
  | nil => simp [Store.set, Store.get]
  | cons e t ih =>
    obtain ⟨a, w⟩ := e
    simp only [Store.set]
    split
    · simp [Store.get]
    · split
      · simp [Store.get]
      · rename_i h₁ h₂
        simp [Store.get, Ne.symm h₂, ih]

theorem Store.get_set_ne (m : Store α) (v : α) (h : n ≠ k) : (m.set n v).get k = m.get k := by
  induction m with
  | nil => simp [Store.set, Store.get, h]
  | cons e t ih =>
    obtain ⟨a, w⟩ := e
    simp only [Store.set]
    split
    · simp [Store.get, h]
    · split
      · rename_i h₂
        subst h₂
        simp [Store.get, h]
      · simp [Store.get, ih]

theorem Store.get_set (m : Store α) (n k : Nat) (v : α) :
    (m.set n v).get k = if n = k then some v else m.get k := by
  by_cases h : n = k
  · subst h; simp
  · rw [Store.get_set_ne m v h, if_neg h]

@[simp] theorem Store.get_erase_self (m : Store α) (n : Nat) : (m.erase n).get n = none := by
  induction m with
  | nil => rfl
  | cons e t ih =>
    obtain ⟨a, w⟩ := e
    by_cases h : a = n
    · simpa [Store.erase, h] using ih
    · simpa [Store.erase, h, Store.get] using ih

theorem Store.get_erase_ne (m : Store α) (h : n ≠ k) : (m.erase n).get k = m.get k := by
  induction m with
  | nil => rfl
  | cons e t ih =>
    obtain ⟨a, w⟩ := e
    by_cases h₁ : a = n
    · subst h₁
      simpa [Store.erase, Store.get, h] using ih
    · by_cases h₂ : a = k
      · subst h₂
        simp [Store.erase, h₁, Store.get]
      · simpa [Store.erase, h₁, Store.get, h₂] using ih

@[simp] theorem Store.get_mapVals (f : α → α) (m : Store α) (n : Nat) :
    (Store.mapVals f m).get n = (m.get n).map f := by
  induction m with
  | nil => rfl
  | cons e t ih =>
    obtain ⟨a, w⟩ := e
    by_cases h : a = n
    · simp [Store.mapVals, Store.get, h]
    · simpa [Store.mapVals, Store.get, h] using ih

/-- A record that a store gives stands in it under its number. -/
theorem Store.mem_of_get (h : m.get n = some v) : (n, v) ∈ m := by
  induction m with
  | nil => simp [Store.get] at h
  | cons e t ih =>
    obtain ⟨a, w⟩ := e
    by_cases ha : a = n
    · simp [Store.get, ha] at h
      simp [ha, h]
    · simp [Store.get, ha] at h
      exact List.mem_cons_of_mem _ (ih h)

/-- In a store in rising order, each entry is the record of its number. -/
theorem Store.get_of_mem (sorted : m.Sorted) (h : (n, v) ∈ m) : m.get n = some v := by
  induction m with
  | nil => simp at h
  | cons e t ih =>
    obtain ⟨a, w⟩ := e
    obtain ⟨first, rest⟩ := List.pairwise_cons.mp sorted
    rcases List.mem_cons.mp h with h | h
    · cases h; simp [Store.get]
    · have := first _ h
      rw [Store.get, if_neg (by omega)]
      exact ih rest h

theorem Store.mem_set {e : Nat × α} (h : e ∈ m.set n v) : e = (n, v) ∨ e ∈ m := by
  induction m with
  | nil => simpa [Store.set] using h
  | cons x t ih =>
    obtain ⟨a, w⟩ := x
    simp only [Store.set] at h
    split at h
    · simpa using h
    · split at h
      · rcases List.mem_cons.mp h with h | h
        · exact .inl h
        · exact .inr (List.mem_cons_of_mem _ h)
      · rcases List.mem_cons.mp h with h | h
        · exact .inr (by simp [h])
        · rcases ih h with h | h
          · exact .inl h
          · exact .inr (List.mem_cons_of_mem _ h)

theorem Store.sorted_set (sorted : m.Sorted) (n : Nat) (v : α) : (m.set n v).Sorted := by
  induction m with
  | nil => simp [Store.set, Store.Sorted]
  | cons e t ih =>
    obtain ⟨a, w⟩ := e
    obtain ⟨first, rest⟩ := List.pairwise_cons.mp sorted
    simp only [Store.set]
    split
    · rename_i h
      refine List.pairwise_cons.mpr ⟨fun b hb => ?_, sorted⟩
      rcases List.mem_cons.mp hb with hb | hb
      · simpa [hb] using h
      · exact Nat.lt_trans h (first b hb)
    · split
      · rename_i h
        subst h
        exact List.pairwise_cons.mpr ⟨first, rest⟩
      · refine List.pairwise_cons.mpr ⟨fun b hb => ?_, ih rest⟩
        rcases Store.mem_set hb with hb | hb
        · subst hb
          show a < n
          omega
        · exact first b hb

@[simp] theorem Store.set_set (m : Store α) (n : Nat) (v w : α) : (m.set n v).set n w = m.set n w := by
  induction m with
  | nil => simp [Store.set]
  | cons e t ih =>
    simp only [Store.set]
    split
    · simp [Store.set]
    · split
      · simp [Store.set]
      · simp_all [Store.set]

/-- Putting back the record that stands at a number changes nothing. -/
theorem Store.set_get (sorted : m.Sorted) (h : m.get n = some v) : m.set n v = m := by
  induction m with
  | nil => simp [Store.get] at h
  | cons e t ih =>
    obtain ⟨a, w⟩ := e
    obtain ⟨first, rest⟩ := List.pairwise_cons.mp sorted
    by_cases ha : a = n
    · simp [Store.get, ha] at h
      simp [Store.set, ha, h]
    · simp [Store.get, ha] at h
      have := first _ (Store.mem_of_get h)
      simp only [Store.set]
      rw [if_neg (by dsimp at this; omega), if_neg (Ne.symm ha), ih rest h]

theorem Store.sorted_erase (sorted : m.Sorted) (n : Nat) : (m.erase n).Sorted := List.Pairwise.filter _ sorted

theorem Store.sorted_mapVals (sorted : m.Sorted) (f : α → α) : (Store.mapVals f m).Sorted := by
  simpa [Store.Sorted, Store.mapVals, List.pairwise_map] using sorted

end Store

end Sys2Proof.Machine
end

