-- ==== Sys2Proof/Laws/State.lean ====
section
/-! SUPPORT. What each field holds after each update of State, and what a record reads after it: true by
definition, so that no proof unfolds a record update. -/

namespace Sys2Proof.Machine

variable (s : State)

/-! ### settle -/

@[simp] theorem State.settle_tb : s.settle.tb = s.tb := rfl
@[simp] theorem State.settle_links : s.settle.links = s.links := rfl
@[simp] theorem State.settle_objects : s.settle.objects = s.objects := rfl
@[simp] theorem State.settle_berthEvents : s.settle.berthEvents = s.berthEvents := rfl
@[simp] theorem State.settle_answers : s.settle.answers = s.answers := rfl
@[simp] theorem State.settle_tc : s.settle.tc = s.tc := rfl
@[simp] theorem State.settle_sc : s.settle.sc = s.sc := rfl
@[simp] theorem State.settle_sl : s.settle.sl = s.sl := rfl
@[simp] theorem State.settle_watch : s.settle.watch = s.watch := rfl
@[simp] theorem State.settle_settings : s.settle.settings = s.settings := rfl
@[simp] theorem State.settle_source : s.settle.source = s.source := rfl
@[simp] theorem State.settle_copy : s.settle.copy = s.copy := rfl
@[simp] theorem State.settle_saving : s.settle.saving = s.saving := rfl
@[simp] theorem State.settle_attnU : s.settle.attnU = s.wantsU := rfl
@[simp] theorem State.settle_attnR : s.settle.attnR = s.wantsR := rfl
@[simp] theorem State.settle_held : s.settle.held = s.held := rfl
@[simp] theorem State.settle_freeCount : s.settle.freeCount = s.freeCount := rfl
@[simp] theorem State.settle_pending : s.settle.pending = s.pending := rfl

/-! ### setLink -/

@[simp] theorem State.setLink_tb (i : Fin 4) (l : Link) : (s.setLink i l).tb = s.tb := rfl
@[simp] theorem State.setLink_links (i : Fin 4) (l : Link) : (s.setLink i l).links = s.links.set i l := rfl
@[simp] theorem State.setLink_objects (i : Fin 4) (l : Link) : (s.setLink i l).objects = s.objects := rfl
@[simp] theorem State.setLink_berthEvents (i : Fin 4) (l : Link) :
    (s.setLink i l).berthEvents = s.berthEvents := rfl
@[simp] theorem State.setLink_answers (i : Fin 4) (l : Link) : (s.setLink i l).answers = s.answers := rfl
@[simp] theorem State.setLink_tc (i : Fin 4) (l : Link) : (s.setLink i l).tc = s.tc := rfl
@[simp] theorem State.setLink_sc (i : Fin 4) (l : Link) : (s.setLink i l).sc = s.sc := rfl
@[simp] theorem State.setLink_sl (i : Fin 4) (l : Link) : (s.setLink i l).sl = s.sl := rfl
@[simp] theorem State.setLink_watch (i : Fin 4) (l : Link) : (s.setLink i l).watch = s.watch := rfl
@[simp] theorem State.setLink_settings (i : Fin 4) (l : Link) : (s.setLink i l).settings = s.settings := rfl
@[simp] theorem State.setLink_source (i : Fin 4) (l : Link) : (s.setLink i l).source = s.source := rfl
@[simp] theorem State.setLink_copy (i : Fin 4) (l : Link) : (s.setLink i l).copy = s.copy := rfl
@[simp] theorem State.setLink_saving (i : Fin 4) (l : Link) : (s.setLink i l).saving = s.saving := rfl
@[simp] theorem State.setLink_attnU (i : Fin 4) (l : Link) : (s.setLink i l).attnU = s.attnU := rfl
@[simp] theorem State.setLink_attnR (i : Fin 4) (l : Link) : (s.setLink i l).attnR = s.attnR := rfl
@[simp] theorem State.setLink_held (i : Fin 4) (l : Link) : (s.setLink i l).held = s.held := rfl
@[simp] theorem State.setLink_freeCount (i : Fin 4) (l : Link) : (s.setLink i l).freeCount = s.freeCount := rfl
@[simp] theorem State.setLink_pending (i : Fin 4) (l : Link) : (s.setLink i l).pending = s.pending := rfl

/-! ### setLine -/

@[simp] theorem State.setLine_tb (i : Fin 4) (l : Line) : (s.setLine i l).tb = s.tb := rfl
@[simp] theorem State.setLine_links (i : Fin 4) (l : Line) : (s.setLine i l).links = s.links := rfl
@[simp] theorem State.setLine_objects (i : Fin 4) (l : Line) : (s.setLine i l).objects = s.objects := rfl
@[simp] theorem State.setLine_berthEvents (i : Fin 4) (l : Line) :
    (s.setLine i l).berthEvents = s.berthEvents := rfl
@[simp] theorem State.setLine_answers (i : Fin 4) (l : Line) : (s.setLine i l).answers = s.answers := rfl
@[simp] theorem State.setLine_tc (i : Fin 4) (l : Line) : (s.setLine i l).tc = s.tc := rfl
@[simp] theorem State.setLine_sc (i : Fin 4) (l : Line) :
    (s.setLine i l).sc = { s.sc with lines := s.sc.lines.set i l } := rfl
@[simp] theorem State.setLine_sl (i : Fin 4) (l : Line) : (s.setLine i l).sl = s.sl := rfl
@[simp] theorem State.setLine_watch (i : Fin 4) (l : Line) : (s.setLine i l).watch = s.watch := rfl
@[simp] theorem State.setLine_settings (i : Fin 4) (l : Line) : (s.setLine i l).settings = s.settings := rfl
@[simp] theorem State.setLine_source (i : Fin 4) (l : Line) : (s.setLine i l).source = s.source := rfl
@[simp] theorem State.setLine_copy (i : Fin 4) (l : Line) : (s.setLine i l).copy = s.copy := rfl
@[simp] theorem State.setLine_saving (i : Fin 4) (l : Line) : (s.setLine i l).saving = s.saving := rfl
@[simp] theorem State.setLine_attnU (i : Fin 4) (l : Line) : (s.setLine i l).attnU = s.attnU := rfl
@[simp] theorem State.setLine_attnR (i : Fin 4) (l : Line) : (s.setLine i l).attnR = s.attnR := rfl
@[simp] theorem State.setLine_held (i : Fin 4) (l : Line) : (s.setLine i l).held = s.held := rfl
@[simp] theorem State.setLine_freeCount (i : Fin 4) (l : Line) : (s.setLine i l).freeCount = s.freeCount := rfl
@[simp] theorem State.setLine_pending (i : Fin 4) (l : Line) : (s.setLine i l).pending = s.pending := rfl

/-! ### setObject -/

@[simp] theorem State.setObject_tb (n : Nat) (r : ObjectRec) : (s.setObject n r).tb = s.tb := rfl
@[simp] theorem State.setObject_links (n : Nat) (r : ObjectRec) : (s.setObject n r).links = s.links := rfl
@[simp] theorem State.setObject_objects (n : Nat) (r : ObjectRec) :
    (s.setObject n r).objects = s.objects.set n r := rfl
@[simp] theorem State.setObject_berthEvents (n : Nat) (r : ObjectRec) :
    (s.setObject n r).berthEvents = s.berthEvents := rfl
@[simp] theorem State.setObject_answers (n : Nat) (r : ObjectRec) : (s.setObject n r).answers = s.answers := rfl
@[simp] theorem State.setObject_tc (n : Nat) (r : ObjectRec) : (s.setObject n r).tc = s.tc := rfl
@[simp] theorem State.setObject_sc (n : Nat) (r : ObjectRec) : (s.setObject n r).sc = s.sc := rfl
@[simp] theorem State.setObject_sl (n : Nat) (r : ObjectRec) : (s.setObject n r).sl = s.sl := rfl
@[simp] theorem State.setObject_watch (n : Nat) (r : ObjectRec) : (s.setObject n r).watch = s.watch := rfl
@[simp] theorem State.setObject_settings (n : Nat) (r : ObjectRec) : (s.setObject n r).settings = s.settings := rfl
@[simp] theorem State.setObject_source (n : Nat) (r : ObjectRec) : (s.setObject n r).source = s.source := rfl
@[simp] theorem State.setObject_copy (n : Nat) (r : ObjectRec) : (s.setObject n r).copy = s.copy := rfl
@[simp] theorem State.setObject_saving (n : Nat) (r : ObjectRec) : (s.setObject n r).saving = s.saving := rfl
@[simp] theorem State.setObject_attnU (n : Nat) (r : ObjectRec) : (s.setObject n r).attnU = s.attnU := rfl
@[simp] theorem State.setObject_attnR (n : Nat) (r : ObjectRec) : (s.setObject n r).attnR = s.attnR := rfl
@[simp] theorem State.setObject_held (n : Nat) (r : ObjectRec) : (s.setObject n r).held = s.held := rfl
@[simp] theorem State.setObject_freeCount (n : Nat) (r : ObjectRec) :
    (s.setObject n r).freeCount = s.freeCount := rfl
@[simp] theorem State.setObject_pending (n : Nat) (r : ObjectRec) : (s.setObject n r).pending = s.pending := rfl

/-! ### setPath -/

@[simp] theorem State.setPath_tb (n : Nat) (p : PathRec) : (s.setPath n p).tb = s.tb := rfl
@[simp] theorem State.setPath_links (n : Nat) (p : PathRec) : (s.setPath n p).links = s.links := rfl
@[simp] theorem State.setPath_objects (n : Nat) (p : PathRec) : (s.setPath n p).objects = s.objects := rfl
@[simp] theorem State.setPath_berthEvents (n : Nat) (p : PathRec) :
    (s.setPath n p).berthEvents = s.berthEvents := rfl
@[simp] theorem State.setPath_answers (n : Nat) (p : PathRec) : (s.setPath n p).answers = s.answers := rfl
@[simp] theorem State.setPath_tc (n : Nat) (p : PathRec) :
    (s.setPath n p).tc = { s.tc with paths := s.tc.paths.set n p } := rfl
@[simp] theorem State.setPath_sc (n : Nat) (p : PathRec) : (s.setPath n p).sc = s.sc := rfl
@[simp] theorem State.setPath_sl (n : Nat) (p : PathRec) : (s.setPath n p).sl = s.sl := rfl
@[simp] theorem State.setPath_watch (n : Nat) (p : PathRec) : (s.setPath n p).watch = s.watch := rfl
@[simp] theorem State.setPath_settings (n : Nat) (p : PathRec) : (s.setPath n p).settings = s.settings := rfl
@[simp] theorem State.setPath_source (n : Nat) (p : PathRec) : (s.setPath n p).source = s.source := rfl
@[simp] theorem State.setPath_copy (n : Nat) (p : PathRec) : (s.setPath n p).copy = s.copy := rfl
@[simp] theorem State.setPath_saving (n : Nat) (p : PathRec) : (s.setPath n p).saving = s.saving := rfl
@[simp] theorem State.setPath_attnU (n : Nat) (p : PathRec) : (s.setPath n p).attnU = s.attnU := rfl
@[simp] theorem State.setPath_attnR (n : Nat) (p : PathRec) : (s.setPath n p).attnR = s.attnR := rfl
@[simp] theorem State.setPath_held (n : Nat) (p : PathRec) : (s.setPath n p).held = s.held := rfl
@[simp] theorem State.setPath_freeCount (n : Nat) (p : PathRec) : (s.setPath n p).freeCount = s.freeCount := rfl
@[simp] theorem State.setPath_pending (n : Nat) (p : PathRec) : (s.setPath n p).pending = s.pending := rfl

/-! ### report -/

@[simp] theorem State.report_tb (w : Watched) : (s.report w).tb = s.tb := rfl
@[simp] theorem State.report_links (w : Watched) : (s.report w).links = s.links := rfl
@[simp] theorem State.report_objects (w : Watched) : (s.report w).objects = s.objects := rfl
@[simp] theorem State.report_berthEvents (w : Watched) : (s.report w).berthEvents = s.berthEvents := rfl
@[simp] theorem State.report_answers (w : Watched) : (s.report w).answers = s.answers := rfl
@[simp] theorem State.report_tc (w : Watched) : (s.report w).tc = s.tc := rfl
@[simp] theorem State.report_sc (w : Watched) : (s.report w).sc = s.sc := rfl
@[simp] theorem State.report_sl (w : Watched) : (s.report w).sl = s.sl := rfl
@[simp] theorem State.report_watch (w : Watched) : (s.report w).watch = s.watch.map (WatchSlot.reported w) := rfl
@[simp] theorem State.report_settings (w : Watched) : (s.report w).settings = s.settings := rfl
@[simp] theorem State.report_source (w : Watched) : (s.report w).source = s.source := rfl
@[simp] theorem State.report_copy (w : Watched) : (s.report w).copy = s.copy := rfl
@[simp] theorem State.report_saving (w : Watched) : (s.report w).saving = s.saving := rfl
@[simp] theorem State.report_attnU (w : Watched) : (s.report w).attnU = s.attnU := rfl
@[simp] theorem State.report_attnR (w : Watched) : (s.report w).attnR = s.attnR := rfl
@[simp] theorem State.report_held (w : Watched) : (s.report w).held = s.held := rfl
@[simp] theorem State.report_freeCount (w : Watched) : (s.report w).freeCount = s.freeCount := rfl
@[simp] theorem State.report_pending (w : Watched) : (s.report w).pending = s.pending := rfl

/-! ### unwatch -/

@[simp] theorem State.unwatch_tb (w : Watched) : (s.unwatch w).tb = s.tb := rfl
@[simp] theorem State.unwatch_links (w : Watched) : (s.unwatch w).links = s.links := rfl
@[simp] theorem State.unwatch_objects (w : Watched) : (s.unwatch w).objects = s.objects := rfl
@[simp] theorem State.unwatch_berthEvents (w : Watched) : (s.unwatch w).berthEvents = s.berthEvents := rfl
@[simp] theorem State.unwatch_answers (w : Watched) : (s.unwatch w).answers = s.answers := rfl
@[simp] theorem State.unwatch_tc (w : Watched) : (s.unwatch w).tc = s.tc := rfl
@[simp] theorem State.unwatch_sc (w : Watched) : (s.unwatch w).sc = s.sc := rfl
@[simp] theorem State.unwatch_sl (w : Watched) : (s.unwatch w).sl = s.sl := rfl
@[simp] theorem State.unwatch_watch (w : Watched) : (s.unwatch w).watch = s.watch.map (WatchSlot.emptied w) := rfl
@[simp] theorem State.unwatch_settings (w : Watched) : (s.unwatch w).settings = s.settings := rfl
@[simp] theorem State.unwatch_source (w : Watched) : (s.unwatch w).source = s.source := rfl
@[simp] theorem State.unwatch_copy (w : Watched) : (s.unwatch w).copy = s.copy := rfl
@[simp] theorem State.unwatch_saving (w : Watched) : (s.unwatch w).saving = s.saving := rfl
@[simp] theorem State.unwatch_attnU (w : Watched) : (s.unwatch w).attnU = s.attnU := rfl
@[simp] theorem State.unwatch_attnR (w : Watched) : (s.unwatch w).attnR = s.attnR := rfl
@[simp] theorem State.unwatch_held (w : Watched) : (s.unwatch w).held = s.held := rfl
@[simp] theorem State.unwatch_freeCount (w : Watched) : (s.unwatch w).freeCount = s.freeCount := rfl
@[simp] theorem State.unwatch_pending (w : Watched) : (s.unwatch w).pending = s.pending := rfl

/-! ### withPool -/

@[simp] theorem State.withPool_tb (a b : Nat) : (s.withPool a b).tb = s.tb := rfl
@[simp] theorem State.withPool_links (a b : Nat) : (s.withPool a b).links = s.links := rfl
@[simp] theorem State.withPool_objects (a b : Nat) : (s.withPool a b).objects = s.objects := rfl
@[simp] theorem State.withPool_berthEvents (a b : Nat) : (s.withPool a b).berthEvents = s.berthEvents := rfl
@[simp] theorem State.withPool_answers (a b : Nat) : (s.withPool a b).answers = s.answers := rfl
@[simp] theorem State.withPool_tc (a b : Nat) :
    (s.withPool a b).tc = { s.tc with poolFree := a, poolReserved := b } := rfl
@[simp] theorem State.withPool_sc (a b : Nat) : (s.withPool a b).sc = s.sc := rfl
@[simp] theorem State.withPool_sl (a b : Nat) : (s.withPool a b).sl = s.sl := rfl
@[simp] theorem State.withPool_watch (a b : Nat) : (s.withPool a b).watch = s.watch := rfl
@[simp] theorem State.withPool_settings (a b : Nat) : (s.withPool a b).settings = s.settings := rfl
@[simp] theorem State.withPool_source (a b : Nat) : (s.withPool a b).source = s.source := rfl
@[simp] theorem State.withPool_copy (a b : Nat) : (s.withPool a b).copy = s.copy := rfl
@[simp] theorem State.withPool_saving (a b : Nat) : (s.withPool a b).saving = s.saving := rfl
@[simp] theorem State.withPool_attnU (a b : Nat) : (s.withPool a b).attnU = s.attnU := rfl
@[simp] theorem State.withPool_attnR (a b : Nat) : (s.withPool a b).attnR = s.attnR := rfl
@[simp] theorem State.withPool_held (a b : Nat) : (s.withPool a b).held = s.held := rfl
@[simp] theorem State.withPool_freeCount (a b : Nat) : (s.withPool a b).freeCount = s.freeCount := rfl
@[simp] theorem State.withPool_pending (a b : Nat) : (s.withPool a b).pending = s.pending := rfl

/-! ### disturb -/

@[simp] theorem State.disturb_tb : s.disturb.tb = s.tb := rfl
@[simp] theorem State.disturb_links : s.disturb.links = s.links := rfl
@[simp] theorem State.disturb_objects : s.disturb.objects = s.objects := rfl
@[simp] theorem State.disturb_berthEvents : s.disturb.berthEvents = s.berthEvents := rfl
@[simp] theorem State.disturb_answers : s.disturb.answers = s.answers := rfl
@[simp] theorem State.disturb_tc :
    s.disturb.tc = { s.tc with digest := s.tc.digest.map fun d => { d with disturbed := true } } := rfl
@[simp] theorem State.disturb_sc : s.disturb.sc = s.sc := rfl
@[simp] theorem State.disturb_sl : s.disturb.sl = s.sl := rfl
@[simp] theorem State.disturb_watch : s.disturb.watch = s.watch := rfl
@[simp] theorem State.disturb_settings : s.disturb.settings = s.settings := rfl
@[simp] theorem State.disturb_source : s.disturb.source = s.source := rfl
@[simp] theorem State.disturb_copy : s.disturb.copy = s.copy := rfl
@[simp] theorem State.disturb_saving : s.disturb.saving = s.saving := rfl
@[simp] theorem State.disturb_attnU : s.disturb.attnU = s.attnU := rfl
@[simp] theorem State.disturb_attnR : s.disturb.attnR = s.attnR := rfl
@[simp] theorem State.disturb_held : s.disturb.held = s.held := rfl
@[simp] theorem State.disturb_freeCount : s.disturb.freeCount = s.freeCount := rfl
@[simp] theorem State.disturb_pending : s.disturb.pending = s.pending := rfl

/-! ### announce -/

@[simp] theorem State.announce_tb (x : Option TimeStep) : (s.announce x).tb = s.tb := rfl
@[simp] theorem State.announce_links (x : Option TimeStep) : (s.announce x).links = s.links := rfl
@[simp] theorem State.announce_objects (x : Option TimeStep) : (s.announce x).objects = s.objects := rfl
@[simp] theorem State.announce_berthEvents (x : Option TimeStep) :
    (s.announce x).berthEvents = s.berthEvents := rfl
@[simp] theorem State.announce_answers (x : Option TimeStep) : (s.announce x).answers = s.answers := rfl
@[simp] theorem State.announce_tc (x : Option TimeStep) :
    (s.announce x).tc = { s.tc with announcements := s.tc.announcements ++ [⟨s.quality, s.tb.stationUs, x⟩] } := rfl
@[simp] theorem State.announce_sc (x : Option TimeStep) :
    (s.announce x).sc = { s.sc with announcements := s.sc.announcements ++ [.time ⟨s.quality, s.tb.stationUs, x⟩] } := rfl
@[simp] theorem State.announce_sl (x : Option TimeStep) : (s.announce x).sl = s.sl := rfl
@[simp] theorem State.announce_watch (x : Option TimeStep) : (s.announce x).watch = s.watch := rfl
@[simp] theorem State.announce_settings (x : Option TimeStep) : (s.announce x).settings = s.settings := rfl
@[simp] theorem State.announce_source (x : Option TimeStep) : (s.announce x).source = s.source := rfl
@[simp] theorem State.announce_copy (x : Option TimeStep) : (s.announce x).copy = s.copy := rfl
@[simp] theorem State.announce_saving (x : Option TimeStep) : (s.announce x).saving = s.saving := rfl
@[simp] theorem State.announce_attnU (x : Option TimeStep) : (s.announce x).attnU = s.attnU := rfl
@[simp] theorem State.announce_attnR (x : Option TimeStep) : (s.announce x).attnR = s.attnR := rfl
@[simp] theorem State.announce_held (x : Option TimeStep) : (s.announce x).held = s.held := rfl
@[simp] theorem State.announce_freeCount (x : Option TimeStep) : (s.announce x).freeCount = s.freeCount := rfl
@[simp] theorem State.announce_pending (x : Option TimeStep) : (s.announce x).pending = s.pending := rfl

/-! ### announceCivil -/

@[simp] theorem State.announceCivil_tb : s.announceCivil.tb = s.tb := rfl
@[simp] theorem State.announceCivil_links : s.announceCivil.links = s.links := rfl
@[simp] theorem State.announceCivil_objects : s.announceCivil.objects = s.objects := rfl
@[simp] theorem State.announceCivil_berthEvents : s.announceCivil.berthEvents = s.berthEvents := rfl
@[simp] theorem State.announceCivil_answers : s.announceCivil.answers = s.answers := rfl
@[simp] theorem State.announceCivil_tc : s.announceCivil.tc = s.tc := rfl
@[simp] theorem State.announceCivil_sc :
    s.announceCivil.sc = { s.sc with announcements := s.sc.announcements ++ [.civil s.civilMs] } := rfl
@[simp] theorem State.announceCivil_sl : s.announceCivil.sl = s.sl := rfl
@[simp] theorem State.announceCivil_watch : s.announceCivil.watch = s.watch := rfl
@[simp] theorem State.announceCivil_settings : s.announceCivil.settings = s.settings := rfl
@[simp] theorem State.announceCivil_source : s.announceCivil.source = s.source := rfl
@[simp] theorem State.announceCivil_copy : s.announceCivil.copy = s.copy := rfl
@[simp] theorem State.announceCivil_saving : s.announceCivil.saving = s.saving := rfl
@[simp] theorem State.announceCivil_attnU : s.announceCivil.attnU = s.attnU := rfl
@[simp] theorem State.announceCivil_attnR : s.announceCivil.attnR = s.attnR := rfl
@[simp] theorem State.announceCivil_held : s.announceCivil.held = s.held := rfl
@[simp] theorem State.announceCivil_freeCount : s.announceCivil.freeCount = s.freeCount := rfl
@[simp] theorem State.announceCivil_pending : s.announceCivil.pending = s.pending := rfl

/-! ### slotAccepts -/

@[simp] theorem State.slotAccepts_tb (k : LongOp) (t : Byte) : (s.slotAccepts k t).tb = s.tb := rfl
@[simp] theorem State.slotAccepts_links (k : LongOp) (t : Byte) : (s.slotAccepts k t).links = s.links := rfl
@[simp] theorem State.slotAccepts_objects (k : LongOp) (t : Byte) : (s.slotAccepts k t).objects = s.objects := rfl
@[simp] theorem State.slotAccepts_berthEvents (k : LongOp) (t : Byte) :
    (s.slotAccepts k t).berthEvents = s.berthEvents := rfl
@[simp] theorem State.slotAccepts_answers (k : LongOp) (t : Byte) : (s.slotAccepts k t).answers = s.answers := rfl
@[simp] theorem State.slotAccepts_tc (k : LongOp) (t : Byte) : (s.slotAccepts k t).tc = s.tc := rfl
@[simp] theorem State.slotAccepts_sc (k : LongOp) (t : Byte) : (s.slotAccepts k t).sc = s.sc := rfl
@[simp] theorem State.slotAccepts_sl (k : LongOp) (t : Byte) :
    (s.slotAccepts k t).sl = { s.sl with slot := .inFlight k t s.now } := rfl
@[simp] theorem State.slotAccepts_watch (k : LongOp) (t : Byte) : (s.slotAccepts k t).watch = s.watch := rfl
@[simp] theorem State.slotAccepts_settings (k : LongOp) (t : Byte) :
    (s.slotAccepts k t).settings = s.settings := rfl
@[simp] theorem State.slotAccepts_source (k : LongOp) (t : Byte) : (s.slotAccepts k t).source = s.source := rfl
@[simp] theorem State.slotAccepts_copy (k : LongOp) (t : Byte) : (s.slotAccepts k t).copy = s.copy := rfl
@[simp] theorem State.slotAccepts_saving (k : LongOp) (t : Byte) : (s.slotAccepts k t).saving = s.saving := rfl
@[simp] theorem State.slotAccepts_attnU (k : LongOp) (t : Byte) : (s.slotAccepts k t).attnU = s.attnU := rfl
@[simp] theorem State.slotAccepts_attnR (k : LongOp) (t : Byte) : (s.slotAccepts k t).attnR = s.attnR := rfl
@[simp] theorem State.slotAccepts_held (k : LongOp) (t : Byte) : (s.slotAccepts k t).held = s.held := rfl
@[simp] theorem State.slotAccepts_freeCount (k : LongOp) (t : Byte) :
    (s.slotAccepts k t).freeCount = s.freeCount := rfl
@[simp] theorem State.slotAccepts_pending (k : LongOp) (t : Byte) : (s.slotAccepts k t).pending = s.pending := rfl

/-! ### useFree -/

@[simp] theorem State.useFree_tb : s.useFree.tb = s.tb := rfl
@[simp] theorem State.useFree_links : s.useFree.links = s.links := rfl
@[simp] theorem State.useFree_objects : s.useFree.objects = s.objects := rfl
@[simp] theorem State.useFree_berthEvents : s.useFree.berthEvents = s.berthEvents := rfl
@[simp] theorem State.useFree_answers : s.useFree.answers = s.answers := rfl
@[simp] theorem State.useFree_tc : s.useFree.tc = s.tc := rfl
@[simp] theorem State.useFree_sc : s.useFree.sc = s.sc := rfl
@[simp] theorem State.useFree_sl : s.useFree.sl = s.sl := rfl
@[simp] theorem State.useFree_watch : s.useFree.watch = s.watch := rfl
@[simp] theorem State.useFree_settings : s.useFree.settings = s.settings := rfl
@[simp] theorem State.useFree_source : s.useFree.source = s.source := rfl
@[simp] theorem State.useFree_copy : s.useFree.copy = s.copy := rfl
@[simp] theorem State.useFree_saving : s.useFree.saving = s.saving := rfl
@[simp] theorem State.useFree_attnU : s.useFree.attnU = s.attnU := rfl
@[simp] theorem State.useFree_attnR : s.useFree.attnR = s.attnR := rfl
@[simp] theorem State.useFree_held : s.useFree.held = s.held := rfl
@[simp] theorem State.useFree_freeCount : s.useFree.freeCount = s.freeCount + 1 := rfl
@[simp] theorem State.useFree_pending : s.useFree.pending = s.pending := rfl

/-! ### tick -/

@[simp] theorem State.tick_tb : s.tick.tb = s.tb.tick := rfl
@[simp] theorem State.tick_links : s.tick.links = s.links := rfl
@[simp] theorem State.tick_objects : s.tick.objects = s.objects := rfl
@[simp] theorem State.tick_berthEvents : s.tick.berthEvents = s.berthEvents := rfl
@[simp] theorem State.tick_answers : s.tick.answers = s.answers := rfl
@[simp] theorem State.tick_tc : s.tick.tc = s.tc := rfl
@[simp] theorem State.tick_sc : s.tick.sc = s.sc := rfl
@[simp] theorem State.tick_sl : s.tick.sl = s.sl := rfl
@[simp] theorem State.tick_watch : s.tick.watch = s.watch := rfl
@[simp] theorem State.tick_settings : s.tick.settings = s.settings := rfl
@[simp] theorem State.tick_source : s.tick.source = s.source := rfl
@[simp] theorem State.tick_copy : s.tick.copy = s.copy := rfl
@[simp] theorem State.tick_saving : s.tick.saving = s.saving := rfl
@[simp] theorem State.tick_attnU : s.tick.attnU = s.attnU := rfl
@[simp] theorem State.tick_attnR : s.tick.attnR = s.attnR := rfl
@[simp] theorem State.tick_held : s.tick.held = s.held := rfl
@[simp] theorem State.tick_freeCount : s.tick.freeCount = s.freeCount := rfl
@[simp] theorem State.tick_pending : s.tick.pending = s.pending := rfl

/-! ### setWatch -/

@[simp] theorem State.setWatch_tb (i : Fin 16) (w : Watched) : (s.setWatch i w).tb = s.tb := rfl
@[simp] theorem State.setWatch_links (i : Fin 16) (w : Watched) : (s.setWatch i w).links = s.links := rfl
@[simp] theorem State.setWatch_objects (i : Fin 16) (w : Watched) : (s.setWatch i w).objects = s.objects := rfl
@[simp] theorem State.setWatch_berthEvents (i : Fin 16) (w : Watched) :
    (s.setWatch i w).berthEvents = s.berthEvents := rfl
@[simp] theorem State.setWatch_answers (i : Fin 16) (w : Watched) : (s.setWatch i w).answers = s.answers := rfl
@[simp] theorem State.setWatch_tc (i : Fin 16) (w : Watched) : (s.setWatch i w).tc = s.tc := rfl
@[simp] theorem State.setWatch_sc (i : Fin 16) (w : Watched) : (s.setWatch i w).sc = s.sc := rfl
@[simp] theorem State.setWatch_sl (i : Fin 16) (w : Watched) : (s.setWatch i w).sl = s.sl := rfl
@[simp] theorem State.setWatch_watch (i : Fin 16) (w : Watched) :
    (s.setWatch i w).watch = s.watch.set i ⟨w, true, none⟩ := rfl
@[simp] theorem State.setWatch_settings (i : Fin 16) (w : Watched) : (s.setWatch i w).settings = s.settings := rfl
@[simp] theorem State.setWatch_source (i : Fin 16) (w : Watched) : (s.setWatch i w).source = s.source := rfl
@[simp] theorem State.setWatch_copy (i : Fin 16) (w : Watched) : (s.setWatch i w).copy = s.copy := rfl
@[simp] theorem State.setWatch_saving (i : Fin 16) (w : Watched) : (s.setWatch i w).saving = s.saving := rfl
@[simp] theorem State.setWatch_attnU (i : Fin 16) (w : Watched) : (s.setWatch i w).attnU = s.attnU := rfl
@[simp] theorem State.setWatch_attnR (i : Fin 16) (w : Watched) : (s.setWatch i w).attnR = s.attnR := rfl
@[simp] theorem State.setWatch_held (i : Fin 16) (w : Watched) : (s.setWatch i w).held = s.held := rfl
@[simp] theorem State.setWatch_freeCount (i : Fin 16) (w : Watched) :
    (s.setWatch i w).freeCount = s.freeCount := rfl
@[simp] theorem State.setWatch_pending (i : Fin 16) (w : Watched) : (s.setWatch i w).pending = s.pending := rfl

/-! ### hand -/

@[simp] theorem State.hand_tb (e : BerthEvent) : (s.hand e).tb = s.tb := rfl
@[simp] theorem State.hand_links (e : BerthEvent) : (s.hand e).links = s.links := rfl
@[simp] theorem State.hand_objects (e : BerthEvent) : (s.hand e).objects = s.objects := rfl
@[simp] theorem State.hand_berthEvents (e : BerthEvent) : (s.hand e).berthEvents = s.berthEvents ++ [e] := rfl
@[simp] theorem State.hand_answers (e : BerthEvent) : (s.hand e).answers = s.answers := rfl
@[simp] theorem State.hand_tc (e : BerthEvent) : (s.hand e).tc = s.tc := rfl
@[simp] theorem State.hand_sc (e : BerthEvent) : (s.hand e).sc = s.sc := rfl
@[simp] theorem State.hand_sl (e : BerthEvent) : (s.hand e).sl = s.sl := rfl
@[simp] theorem State.hand_watch (e : BerthEvent) : (s.hand e).watch = s.watch := rfl
@[simp] theorem State.hand_settings (e : BerthEvent) : (s.hand e).settings = s.settings := rfl
@[simp] theorem State.hand_source (e : BerthEvent) : (s.hand e).source = s.source := rfl
@[simp] theorem State.hand_copy (e : BerthEvent) : (s.hand e).copy = s.copy := rfl
@[simp] theorem State.hand_saving (e : BerthEvent) : (s.hand e).saving = s.saving := rfl
@[simp] theorem State.hand_attnU (e : BerthEvent) : (s.hand e).attnU = s.attnU := rfl
@[simp] theorem State.hand_attnR (e : BerthEvent) : (s.hand e).attnR = s.attnR := rfl
@[simp] theorem State.hand_held (e : BerthEvent) : (s.hand e).held = s.held := rfl
@[simp] theorem State.hand_freeCount (e : BerthEvent) : (s.hand e).freeCount = s.freeCount := rfl
@[simp] theorem State.hand_pending (e : BerthEvent) : (s.hand e).pending = s.pending := rfl

/-! ### loadSettings -/

@[simp] theorem State.loadSettings_tb : s.loadSettings.tb = s.tb := rfl
@[simp] theorem State.loadSettings_links : s.loadSettings.links = s.links := rfl
@[simp] theorem State.loadSettings_objects : s.loadSettings.objects = s.objects := rfl
@[simp] theorem State.loadSettings_berthEvents : s.loadSettings.berthEvents = s.berthEvents := rfl
@[simp] theorem State.loadSettings_answers : s.loadSettings.answers = s.answers := rfl
@[simp] theorem State.loadSettings_tc : s.loadSettings.tc = s.tc := rfl
@[simp] theorem State.loadSettings_sc : s.loadSettings.sc = s.sc := rfl
@[simp] theorem State.loadSettings_sl : s.loadSettings.sl = s.sl := rfl
@[simp] theorem State.loadSettings_watch : s.loadSettings.watch = s.watch := rfl
@[simp] theorem State.loadSettings_settings : s.loadSettings.settings = s.copy.load.1 := rfl
@[simp] theorem State.loadSettings_source : s.loadSettings.source = s.copy.load.2 := rfl
@[simp] theorem State.loadSettings_copy : s.loadSettings.copy = s.copy := rfl
@[simp] theorem State.loadSettings_saving : s.loadSettings.saving = s.saving := rfl
@[simp] theorem State.loadSettings_attnU : s.loadSettings.attnU = s.attnU := rfl
@[simp] theorem State.loadSettings_attnR : s.loadSettings.attnR = s.attnR := rfl
@[simp] theorem State.loadSettings_held : s.loadSettings.held = s.held := rfl
@[simp] theorem State.loadSettings_freeCount : s.loadSettings.freeCount = s.freeCount := rfl
@[simp] theorem State.loadSettings_pending : s.loadSettings.pending = s.pending := rfl

/-! ### beginService -/

@[simp] theorem State.beginService_tb : s.beginService.tb = s.tb := rfl
@[simp] theorem State.beginService_links : s.beginService.links = s.links := rfl
@[simp] theorem State.beginService_objects : s.beginService.objects = s.objects := rfl
@[simp] theorem State.beginService_berthEvents : s.beginService.berthEvents = s.berthEvents := rfl
@[simp] theorem State.beginService_answers : s.beginService.answers = s.answers := rfl
@[simp] theorem State.beginService_tc : s.beginService.tc = { s.tc with service := s.quality.service } := rfl
@[simp] theorem State.beginService_sc : s.beginService.sc = s.sc := rfl
@[simp] theorem State.beginService_sl : s.beginService.sl = s.sl := rfl
@[simp] theorem State.beginService_watch : s.beginService.watch = s.watch := rfl
@[simp] theorem State.beginService_settings : s.beginService.settings = s.settings := rfl
@[simp] theorem State.beginService_source : s.beginService.source = s.source := rfl
@[simp] theorem State.beginService_copy : s.beginService.copy = s.copy := rfl
@[simp] theorem State.beginService_saving : s.beginService.saving = s.saving := rfl
@[simp] theorem State.beginService_attnU : s.beginService.attnU = s.attnU := rfl
@[simp] theorem State.beginService_attnR : s.beginService.attnR = s.attnR := rfl
@[simp] theorem State.beginService_held : s.beginService.held = s.held := rfl
@[simp] theorem State.beginService_freeCount : s.beginService.freeCount = s.freeCount := rfl
@[simp] theorem State.beginService_pending : s.beginService.pending = s.pending := rfl

/-! ### disarm -/

@[simp] theorem State.disarm_tb (n : Nat) : (s.disarm n).tb = s.tb := rfl
@[simp] theorem State.disarm_links (n : Nat) : (s.disarm n).links = s.links := rfl
@[simp] theorem State.disarm_objects (n : Nat) :
    (s.disarm n).objects = s.objects.mapVals (ObjectRec.onQueue fun q => q.filter fun e => e.path ≠ n) := rfl
@[simp] theorem State.disarm_berthEvents (n : Nat) : (s.disarm n).berthEvents = s.berthEvents := rfl
@[simp] theorem State.disarm_answers (n : Nat) : (s.disarm n).answers = s.answers := rfl
@[simp] theorem State.disarm_tc (n : Nat) : (s.disarm n).tc = s.tc := rfl
@[simp] theorem State.disarm_sc (n : Nat) : (s.disarm n).sc = s.sc := rfl
@[simp] theorem State.disarm_sl (n : Nat) : (s.disarm n).sl = s.sl := rfl
@[simp] theorem State.disarm_watch (n : Nat) : (s.disarm n).watch = s.watch := rfl
@[simp] theorem State.disarm_settings (n : Nat) : (s.disarm n).settings = s.settings := rfl
@[simp] theorem State.disarm_source (n : Nat) : (s.disarm n).source = s.source := rfl
@[simp] theorem State.disarm_copy (n : Nat) : (s.disarm n).copy = s.copy := rfl
@[simp] theorem State.disarm_saving (n : Nat) : (s.disarm n).saving = s.saving := rfl
@[simp] theorem State.disarm_attnU (n : Nat) : (s.disarm n).attnU = s.attnU := rfl
@[simp] theorem State.disarm_attnR (n : Nat) : (s.disarm n).attnR = s.attnR := rfl
@[simp] theorem State.disarm_held (n : Nat) : (s.disarm n).held = s.held := rfl
@[simp] theorem State.disarm_freeCount (n : Nat) : (s.disarm n).freeCount = s.freeCount := rfl
@[simp] theorem State.disarm_pending (n : Nat) : (s.disarm n).pending = s.pending := rfl

/-! ### dropAnswers -/

@[simp] theorem State.dropAnswers_tb (n : Nat) : (s.dropAnswers n).tb = s.tb := rfl
@[simp] theorem State.dropAnswers_links (n : Nat) : (s.dropAnswers n).links = s.links := rfl
@[simp] theorem State.dropAnswers_objects (n : Nat) : (s.dropAnswers n).objects = s.objects := rfl
@[simp] theorem State.dropAnswers_berthEvents (n : Nat) :
    (s.dropAnswers n).berthEvents = s.berthEvents.map (BerthEvent.unowed n) := rfl
@[simp] theorem State.dropAnswers_answers (n : Nat) :
    (s.dropAnswers n).answers = s.answers.filter fun a => a.berth ≠ n := rfl
@[simp] theorem State.dropAnswers_tc (n : Nat) : (s.dropAnswers n).tc = s.tc := rfl
@[simp] theorem State.dropAnswers_sc (n : Nat) : (s.dropAnswers n).sc = s.sc := rfl
@[simp] theorem State.dropAnswers_sl (n : Nat) : (s.dropAnswers n).sl = s.sl := rfl
@[simp] theorem State.dropAnswers_watch (n : Nat) : (s.dropAnswers n).watch = s.watch := rfl
@[simp] theorem State.dropAnswers_settings (n : Nat) : (s.dropAnswers n).settings = s.settings := rfl
@[simp] theorem State.dropAnswers_source (n : Nat) : (s.dropAnswers n).source = s.source := rfl
@[simp] theorem State.dropAnswers_copy (n : Nat) : (s.dropAnswers n).copy = s.copy := rfl
@[simp] theorem State.dropAnswers_saving (n : Nat) : (s.dropAnswers n).saving = s.saving := rfl
@[simp] theorem State.dropAnswers_attnU (n : Nat) : (s.dropAnswers n).attnU = s.attnU := rfl
@[simp] theorem State.dropAnswers_attnR (n : Nat) : (s.dropAnswers n).attnR = s.attnR := rfl
@[simp] theorem State.dropAnswers_held (n : Nat) : (s.dropAnswers n).held = s.held := rfl
@[simp] theorem State.dropAnswers_freeCount (n : Nat) : (s.dropAnswers n).freeCount = s.freeCount := rfl
@[simp] theorem State.dropAnswers_pending (n : Nat) : (s.dropAnswers n).pending = s.pending := rfl

/-! ### withTransaction -/

@[simp] theorem State.withTransaction_tb (t : Transaction) : (s.withTransaction t).tb = s.tb := rfl
@[simp] theorem State.withTransaction_links (t : Transaction) : (s.withTransaction t).links = s.links := rfl
@[simp] theorem State.withTransaction_objects (t : Transaction) : (s.withTransaction t).objects = s.objects := rfl
@[simp] theorem State.withTransaction_berthEvents (t : Transaction) :
    (s.withTransaction t).berthEvents = s.berthEvents := rfl
@[simp] theorem State.withTransaction_answers (t : Transaction) : (s.withTransaction t).answers = s.answers := rfl
@[simp] theorem State.withTransaction_tc (t : Transaction) : (s.withTransaction t).tc = s.tc := rfl
@[simp] theorem State.withTransaction_sc (t : Transaction) : (s.withTransaction t).sc = s.sc := rfl
@[simp] theorem State.withTransaction_sl (t : Transaction) :
    (s.withTransaction t).sl = { s.sl with transaction := t } := rfl
@[simp] theorem State.withTransaction_watch (t : Transaction) : (s.withTransaction t).watch = s.watch := rfl
@[simp] theorem State.withTransaction_settings (t : Transaction) :
    (s.withTransaction t).settings = s.settings := rfl
@[simp] theorem State.withTransaction_source (t : Transaction) : (s.withTransaction t).source = s.source := rfl
@[simp] theorem State.withTransaction_copy (t : Transaction) : (s.withTransaction t).copy = s.copy := rfl
@[simp] theorem State.withTransaction_saving (t : Transaction) : (s.withTransaction t).saving = s.saving := rfl
@[simp] theorem State.withTransaction_attnU (t : Transaction) : (s.withTransaction t).attnU = s.attnU := rfl
@[simp] theorem State.withTransaction_attnR (t : Transaction) : (s.withTransaction t).attnR = s.attnR := rfl
@[simp] theorem State.withTransaction_held (t : Transaction) : (s.withTransaction t).held = s.held := rfl
@[simp] theorem State.withTransaction_freeCount (t : Transaction) :
    (s.withTransaction t).freeCount = s.freeCount := rfl
@[simp] theorem State.withTransaction_pending (t : Transaction) : (s.withTransaction t).pending = s.pending := rfl

/-! ### shiftZeros -/

@[simp] theorem State.shiftZeros_tb (n : Nat) : (s.shiftZeros n).tb = s.tb := rfl
@[simp] theorem State.shiftZeros_links (n : Nat) : (s.shiftZeros n).links = s.links := rfl
@[simp] theorem State.shiftZeros_objects (n : Nat) : (s.shiftZeros n).objects = s.objects := rfl
@[simp] theorem State.shiftZeros_berthEvents (n : Nat) : (s.shiftZeros n).berthEvents = s.berthEvents := rfl
@[simp] theorem State.shiftZeros_answers (n : Nat) : (s.shiftZeros n).answers = s.answers := rfl
@[simp] theorem State.shiftZeros_tc (n : Nat) : (s.shiftZeros n).tc = s.tc := rfl
@[simp] theorem State.shiftZeros_sc (n : Nat) : (s.shiftZeros n).sc = s.sc := rfl
@[simp] theorem State.shiftZeros_sl (n : Nat) :
    (s.shiftZeros n).sl = { s.sl with out := List.replicate n 0 } := rfl
@[simp] theorem State.shiftZeros_watch (n : Nat) : (s.shiftZeros n).watch = s.watch := rfl
@[simp] theorem State.shiftZeros_settings (n : Nat) : (s.shiftZeros n).settings = s.settings := rfl
@[simp] theorem State.shiftZeros_source (n : Nat) : (s.shiftZeros n).source = s.source := rfl
@[simp] theorem State.shiftZeros_copy (n : Nat) : (s.shiftZeros n).copy = s.copy := rfl
@[simp] theorem State.shiftZeros_saving (n : Nat) : (s.shiftZeros n).saving = s.saving := rfl
@[simp] theorem State.shiftZeros_attnU (n : Nat) : (s.shiftZeros n).attnU = s.attnU := rfl
@[simp] theorem State.shiftZeros_attnR (n : Nat) : (s.shiftZeros n).attnR = s.attnR := rfl
@[simp] theorem State.shiftZeros_held (n : Nat) : (s.shiftZeros n).held = s.held := rfl
@[simp] theorem State.shiftZeros_freeCount (n : Nat) : (s.shiftZeros n).freeCount = s.freeCount := rfl
@[simp] theorem State.shiftZeros_pending (n : Nat) : (s.shiftZeros n).pending = s.pending := rfl

/-! ### What a record reads -/

@[simp] theorem State.link_setLink_self (i : Fin 4) (l : Link) : (s.setLink i l).link i = l := Vec.get_set_self ..

theorem State.link_setLink_ne {i j : Fin 4} (l : Link) (h : i ≠ j) : (s.setLink i l).link j = s.link j :=
  Vec.get_set_ne _ l h

@[simp] theorem State.setLink_setLink (i : Fin 4) (l m : Link) : (s.setLink i l).setLink i m = s.setLink i m := by
  simp [State.setLink]

@[simp] theorem State.setLink_link (i : Fin 4) : s.setLink i (s.link i) = s := by
  simp [State.setLink, State.link]

@[simp] theorem State.line_setLine_self (i : Fin 4) (l : Line) : (s.setLine i l).line i = l := Vec.get_set_self ..

theorem State.line_setLine_ne {i j : Fin 4} (l : Line) (h : i ≠ j) : (s.setLine i l).line j = s.line j :=
  Vec.get_set_ne _ l h

@[simp] theorem State.setLine_setLine (i : Fin 4) (l m : Line) : (s.setLine i l).setLine i m = s.setLine i m := by
  simp [State.setLine]

@[simp] theorem State.setLine_line (i : Fin 4) : s.setLine i (s.line i) = s := by
  simp [State.setLine, State.line]

@[simp] theorem State.object_setObject_self (n : Nat) (r : ObjectRec) : (s.setObject n r).object n = some r :=
  Store.get_set_self ..

theorem State.object_setObject_ne {n k : Nat} (r : ObjectRec) (h : n ≠ k) :
    (s.setObject n r).object k = s.object k := Store.get_set_ne _ r h

@[simp] theorem State.path_setPath_self (n : Nat) (p : PathRec) : (s.setPath n p).path n = some p :=
  Store.get_set_self ..

@[simp] theorem State.setPath_setPath (n : Nat) (p q : PathRec) : (s.setPath n p).setPath n q = s.setPath n q := by
  simp [State.setPath]

/-- Writing a path and reporting another change may change places. -/
theorem State.setPath_report (n : Nat) (p : PathRec) (w : Watched) :
    (s.report w).setPath n p = (s.setPath n p).report w := rfl

theorem State.path_setPath_ne {n k : Nat} (p : PathRec) (h : n ≠ k) : (s.setPath n p).path k = s.path k :=
  Store.get_set_ne _ p h

@[simp] theorem State.link_settle (j : Fin 4) : s.settle.link j = s.link j := rfl
@[simp] theorem State.line_settle (j : Fin 4) : s.settle.line j = s.line j := rfl
@[simp] theorem State.object_settle (k : Nat) : s.settle.object k = s.object k := rfl
@[simp] theorem State.path_settle (k : Nat) : s.settle.path k = s.path k := rfl
@[simp] theorem State.line_setLink (i : Fin 4) (l : Link) (j : Fin 4) : (s.setLink i l).line j = s.line j := rfl
@[simp] theorem State.object_setLink (i : Fin 4) (l : Link) (k : Nat) :
    (s.setLink i l).object k = s.object k := rfl
@[simp] theorem State.path_setLink (i : Fin 4) (l : Link) (k : Nat) : (s.setLink i l).path k = s.path k := rfl
@[simp] theorem State.link_setLine (i : Fin 4) (l : Line) (j : Fin 4) : (s.setLine i l).link j = s.link j := rfl
@[simp] theorem State.object_setLine (i : Fin 4) (l : Line) (k : Nat) :
    (s.setLine i l).object k = s.object k := rfl
@[simp] theorem State.path_setLine (i : Fin 4) (l : Line) (k : Nat) : (s.setLine i l).path k = s.path k := rfl
@[simp] theorem State.link_setObject (n : Nat) (r : ObjectRec) (j : Fin 4) :
    (s.setObject n r).link j = s.link j := rfl
@[simp] theorem State.line_setObject (n : Nat) (r : ObjectRec) (j : Fin 4) :
    (s.setObject n r).line j = s.line j := rfl
@[simp] theorem State.path_setObject (n : Nat) (r : ObjectRec) (k : Nat) :
    (s.setObject n r).path k = s.path k := rfl
@[simp] theorem State.link_setPath (n : Nat) (p : PathRec) (j : Fin 4) : (s.setPath n p).link j = s.link j := rfl
@[simp] theorem State.line_setPath (n : Nat) (p : PathRec) (j : Fin 4) : (s.setPath n p).line j = s.line j := rfl
@[simp] theorem State.object_setPath (n : Nat) (p : PathRec) (k : Nat) :
    (s.setPath n p).object k = s.object k := rfl
@[simp] theorem State.link_report (w : Watched) (j : Fin 4) : (s.report w).link j = s.link j := rfl
@[simp] theorem State.line_report (w : Watched) (j : Fin 4) : (s.report w).line j = s.line j := rfl
@[simp] theorem State.object_report (w : Watched) (k : Nat) : (s.report w).object k = s.object k := rfl
@[simp] theorem State.path_report (w : Watched) (k : Nat) : (s.report w).path k = s.path k := rfl
@[simp] theorem State.link_unwatch (w : Watched) (j : Fin 4) : (s.unwatch w).link j = s.link j := rfl
@[simp] theorem State.line_unwatch (w : Watched) (j : Fin 4) : (s.unwatch w).line j = s.line j := rfl
@[simp] theorem State.object_unwatch (w : Watched) (k : Nat) : (s.unwatch w).object k = s.object k := rfl
@[simp] theorem State.path_unwatch (w : Watched) (k : Nat) : (s.unwatch w).path k = s.path k := rfl
@[simp] theorem State.link_withPool (a b : Nat) (j : Fin 4) : (s.withPool a b).link j = s.link j := rfl
@[simp] theorem State.line_withPool (a b : Nat) (j : Fin 4) : (s.withPool a b).line j = s.line j := rfl
@[simp] theorem State.object_withPool (a b : Nat) (k : Nat) : (s.withPool a b).object k = s.object k := rfl
@[simp] theorem State.path_withPool (a b : Nat) (k : Nat) : (s.withPool a b).path k = s.path k := rfl
@[simp] theorem State.link_disturb (j : Fin 4) : s.disturb.link j = s.link j := rfl
@[simp] theorem State.line_disturb (j : Fin 4) : s.disturb.line j = s.line j := rfl
@[simp] theorem State.object_disturb (k : Nat) : s.disturb.object k = s.object k := rfl
@[simp] theorem State.path_disturb (k : Nat) : s.disturb.path k = s.path k := rfl
@[simp] theorem State.link_announce (x : Option TimeStep) (j : Fin 4) : (s.announce x).link j = s.link j := rfl
@[simp] theorem State.line_announce (x : Option TimeStep) (j : Fin 4) : (s.announce x).line j = s.line j := rfl
@[simp] theorem State.object_announce (x : Option TimeStep) (k : Nat) : (s.announce x).object k = s.object k := rfl
@[simp] theorem State.path_announce (x : Option TimeStep) (k : Nat) : (s.announce x).path k = s.path k := rfl
@[simp] theorem State.link_announceCivil (j : Fin 4) : s.announceCivil.link j = s.link j := rfl
@[simp] theorem State.line_announceCivil (j : Fin 4) : s.announceCivil.line j = s.line j := rfl
@[simp] theorem State.object_announceCivil (k : Nat) : s.announceCivil.object k = s.object k := rfl
@[simp] theorem State.path_announceCivil (k : Nat) : s.announceCivil.path k = s.path k := rfl
@[simp] theorem State.link_slotAccepts (k : LongOp) (t : Byte) (j : Fin 4) :
    (s.slotAccepts k t).link j = s.link j := rfl
@[simp] theorem State.line_slotAccepts (k : LongOp) (t : Byte) (j : Fin 4) :
    (s.slotAccepts k t).line j = s.line j := rfl
@[simp] theorem State.object_slotAccepts (o : LongOp) (t : Byte) (k : Nat) :
    (s.slotAccepts o t).object k = s.object k := rfl
@[simp] theorem State.path_slotAccepts (o : LongOp) (t : Byte) (k : Nat) :
    (s.slotAccepts o t).path k = s.path k := rfl
@[simp] theorem State.link_useFree (j : Fin 4) : s.useFree.link j = s.link j := rfl
@[simp] theorem State.line_useFree (j : Fin 4) : s.useFree.line j = s.line j := rfl
@[simp] theorem State.object_useFree (k : Nat) : s.useFree.object k = s.object k := rfl
@[simp] theorem State.path_useFree (k : Nat) : s.useFree.path k = s.path k := rfl
@[simp] theorem State.link_tick (j : Fin 4) : s.tick.link j = s.link j := rfl
@[simp] theorem State.line_tick (j : Fin 4) : s.tick.line j = s.line j := rfl
@[simp] theorem State.object_tick (k : Nat) : s.tick.object k = s.object k := rfl
@[simp] theorem State.path_tick (k : Nat) : s.tick.path k = s.path k := rfl
@[simp] theorem State.link_setWatch (i : Fin 16) (w : Watched) (j : Fin 4) :
    (s.setWatch i w).link j = s.link j := rfl
@[simp] theorem State.line_setWatch (i : Fin 16) (w : Watched) (j : Fin 4) :
    (s.setWatch i w).line j = s.line j := rfl
@[simp] theorem State.object_setWatch (i : Fin 16) (w : Watched) (k : Nat) :
    (s.setWatch i w).object k = s.object k := rfl
@[simp] theorem State.path_setWatch (i : Fin 16) (w : Watched) (k : Nat) :
    (s.setWatch i w).path k = s.path k := rfl
@[simp] theorem State.link_hand (e : BerthEvent) (j : Fin 4) : (s.hand e).link j = s.link j := rfl
@[simp] theorem State.line_hand (e : BerthEvent) (j : Fin 4) : (s.hand e).line j = s.line j := rfl
@[simp] theorem State.object_hand (e : BerthEvent) (k : Nat) : (s.hand e).object k = s.object k := rfl
@[simp] theorem State.path_hand (e : BerthEvent) (k : Nat) : (s.hand e).path k = s.path k := rfl
@[simp] theorem State.link_loadSettings (j : Fin 4) : s.loadSettings.link j = s.link j := rfl
@[simp] theorem State.line_loadSettings (j : Fin 4) : s.loadSettings.line j = s.line j := rfl
@[simp] theorem State.object_loadSettings (k : Nat) : s.loadSettings.object k = s.object k := rfl
@[simp] theorem State.path_loadSettings (k : Nat) : s.loadSettings.path k = s.path k := rfl
@[simp] theorem State.link_beginService (j : Fin 4) : s.beginService.link j = s.link j := rfl
@[simp] theorem State.line_beginService (j : Fin 4) : s.beginService.line j = s.line j := rfl
@[simp] theorem State.object_beginService (k : Nat) : s.beginService.object k = s.object k := rfl
@[simp] theorem State.path_beginService (k : Nat) : s.beginService.path k = s.path k := rfl
@[simp] theorem State.link_disarm (n : Nat) (j : Fin 4) : (s.disarm n).link j = s.link j := rfl
@[simp] theorem State.line_disarm (n : Nat) (j : Fin 4) : (s.disarm n).line j = s.line j := rfl
@[simp] theorem State.path_disarm (n : Nat) (k : Nat) : (s.disarm n).path k = s.path k := rfl

end Sys2Proof.Machine
end

