-- ==== Sys2Proof/Laws/Reports.lean ====
section
/-! SUPPORT. What a condition report can change: the condition set of its subject, and for an object or a path the
changed marks of the watch slots that hold it. Nothing else. -/

namespace Sys2Proof.Machine

variable (s : State)

/-! ### Where a condition set is kept -/

theorem State.setConds_link (i : Fin 4) (cs : CondSet) :
    s.setConds (.link i) cs = s.setLink i { s.link i with conds := cs } := rfl

theorem State.setConds_line (i : Fin 4) (cs : CondSet) :
    s.setConds (.line i) cs = s.setLine i { s.line i with conds := cs } := rfl

theorem State.setConds_object {n : Nat} {r : ObjectRec} (h : s.object n = some r) (cs : CondSet) :
    s.setConds (.object n) cs = (s.setObject n { r with conds := cs }).report (.object n) := by
  simp [State.setConds, State.onObject, h]

theorem State.setConds_path {n : Nat} {p : PathRec} (h : s.path n = some p) (cs : CondSet) :
    s.setConds (.path n) cs = (s.setPath n { p with conds := cs }).report (.path n) := by
  simp [State.setConds, State.onPath, h]

@[simp] theorem State.condsOf_link (i : Fin 4) : s.condsOf (.link i) = (s.link i).conds := rfl

@[simp] theorem State.condsOf_line (i : Fin 4) : s.condsOf (.line i) = (s.line i).conds := rfl

@[simp] theorem State.condsOf_timeBase : s.condsOf .timeBase = s.tb.conds := rfl

theorem State.condsOf_object {n : Nat} {r : ObjectRec} (h : s.object n = some r) :
    s.condsOf (.object n) = r.conds := by simp [State.condsOf, h]

theorem State.condsOf_path {n : Nat} {p : PathRec} (h : s.path n = some p) : s.condsOf (.path n) = p.conds := by
  simp [State.condsOf, h]

/-! ### What a report leaves -/

@[simp] theorem State.setConds_berthEvents (x : Subject) (cs : CondSet) : (s.setConds x cs).berthEvents = s.berthEvents := by
  cases x <;> simp only [State.setConds, State.onLink, State.onLine, State.onObject, State.onPath] <;> try rfl
  all_goals split <;> rfl

@[simp] theorem State.setConds_answers (x : Subject) (cs : CondSet) : (s.setConds x cs).answers = s.answers := by
  cases x <;> simp only [State.setConds, State.onLink, State.onLine, State.onObject, State.onPath] <;> try rfl
  all_goals split <;> rfl

@[simp] theorem State.setConds_sl (x : Subject) (cs : CondSet) : (s.setConds x cs).sl = s.sl := by
  cases x <;> simp only [State.setConds, State.onLink, State.onLine, State.onObject, State.onPath] <;> try rfl
  all_goals split <;> rfl

@[simp] theorem State.setConds_settings (x : Subject) (cs : CondSet) : (s.setConds x cs).settings = s.settings := by
  cases x <;> simp only [State.setConds, State.onLink, State.onLine, State.onObject, State.onPath] <;> try rfl
  all_goals split <;> rfl

@[simp] theorem State.setConds_source (x : Subject) (cs : CondSet) : (s.setConds x cs).source = s.source := by
  cases x <;> simp only [State.setConds, State.onLink, State.onLine, State.onObject, State.onPath] <;> try rfl
  all_goals split <;> rfl

@[simp] theorem State.setConds_copy (x : Subject) (cs : CondSet) : (s.setConds x cs).copy = s.copy := by
  cases x <;> simp only [State.setConds, State.onLink, State.onLine, State.onObject, State.onPath] <;> try rfl
  all_goals split <;> rfl

@[simp] theorem State.setConds_saving (x : Subject) (cs : CondSet) : (s.setConds x cs).saving = s.saving := by
  cases x <;> simp only [State.setConds, State.onLink, State.onLine, State.onObject, State.onPath] <;> try rfl
  all_goals split <;> rfl

@[simp] theorem State.setConds_attnU (x : Subject) (cs : CondSet) : (s.setConds x cs).attnU = s.attnU := by
  cases x <;> simp only [State.setConds, State.onLink, State.onLine, State.onObject, State.onPath] <;> try rfl
  all_goals split <;> rfl

@[simp] theorem State.setConds_attnR (x : Subject) (cs : CondSet) : (s.setConds x cs).attnR = s.attnR := by
  cases x <;> simp only [State.setConds, State.onLink, State.onLine, State.onObject, State.onPath] <;> try rfl
  all_goals split <;> rfl

@[simp] theorem State.setConds_held (x : Subject) (cs : CondSet) : (s.setConds x cs).held = s.held := by
  cases x <;> simp only [State.setConds, State.onLink, State.onLine, State.onObject, State.onPath] <;> try rfl
  all_goals split <;> rfl

@[simp] theorem State.setConds_freeCount (x : Subject) (cs : CondSet) : (s.setConds x cs).freeCount = s.freeCount := by
  cases x <;> simp only [State.setConds, State.onLink, State.onLine, State.onObject, State.onPath] <;> try rfl
  all_goals split <;> rfl

@[simp] theorem State.setConds_pending (x : Subject) (cs : CondSet) : (s.setConds x cs).pending = s.pending := by
  cases x <;> simp only [State.setConds, State.onLink, State.onLine, State.onObject, State.onPath] <;> try rfl
  all_goals split <;> rfl

@[simp] theorem State.setConds_elapsed (x : Subject) (cs : CondSet) : (s.setConds x cs).elapsed = s.elapsed := by
  cases x <;> simp only [State.setConds, State.onLink, State.onLine, State.onObject, State.onPath] <;> try rfl
  all_goals split <;> rfl

@[simp] theorem State.setConds_stationMs (x : Subject) (cs : CondSet) : (s.setConds x cs).stationMs = s.stationMs := by
  cases x <;> simp only [State.setConds, State.onLink, State.onLine, State.onObject, State.onPath] <;> try rfl
  all_goals split <;> rfl

@[simp] theorem State.setConds_quality (x : Subject) (cs : CondSet) : (s.setConds x cs).quality = s.quality := by
  cases x <;> simp only [State.setConds, State.onLink, State.onLine, State.onObject, State.onPath] <;> try rfl
  all_goals split <;> rfl

@[simp] theorem State.setConds_now (x : Subject) (cs : CondSet) : (s.setConds x cs).now = s.now := by
  cases x <;> simp only [State.setConds, State.onLink, State.onLine, State.onObject, State.onPath] <;> try rfl
  all_goals split <;> rfl

@[simp] theorem State.setConds_nowQ (x : Subject) (cs : CondSet) : (s.setConds x cs).nowQ = s.nowQ := by
  cases x <;> simp only [State.setConds, State.onLink, State.onLine, State.onObject, State.onPath] <;> try rfl
  all_goals split <;> rfl

@[simp] theorem State.causeBegins_berthEvents (x : Subject) (c : Class) (d : Detail) : (s.causeBegins x c d).berthEvents = s.berthEvents := by
  simp [State.causeBegins]

@[simp] theorem State.causeBegins_answers (x : Subject) (c : Class) (d : Detail) : (s.causeBegins x c d).answers = s.answers := by
  simp [State.causeBegins]

@[simp] theorem State.causeBegins_sl (x : Subject) (c : Class) (d : Detail) : (s.causeBegins x c d).sl = s.sl := by
  simp [State.causeBegins]

@[simp] theorem State.causeBegins_settings (x : Subject) (c : Class) (d : Detail) : (s.causeBegins x c d).settings = s.settings := by
  simp [State.causeBegins]

@[simp] theorem State.causeBegins_source (x : Subject) (c : Class) (d : Detail) : (s.causeBegins x c d).source = s.source := by
  simp [State.causeBegins]

@[simp] theorem State.causeBegins_copy (x : Subject) (c : Class) (d : Detail) : (s.causeBegins x c d).copy = s.copy := by
  simp [State.causeBegins]

@[simp] theorem State.causeBegins_saving (x : Subject) (c : Class) (d : Detail) : (s.causeBegins x c d).saving = s.saving := by
  simp [State.causeBegins]

@[simp] theorem State.causeBegins_attnU (x : Subject) (c : Class) (d : Detail) : (s.causeBegins x c d).attnU = s.attnU := by
  simp [State.causeBegins]

@[simp] theorem State.causeBegins_attnR (x : Subject) (c : Class) (d : Detail) : (s.causeBegins x c d).attnR = s.attnR := by
  simp [State.causeBegins]

@[simp] theorem State.causeBegins_held (x : Subject) (c : Class) (d : Detail) : (s.causeBegins x c d).held = s.held := by
  simp [State.causeBegins]

@[simp] theorem State.causeBegins_freeCount (x : Subject) (c : Class) (d : Detail) : (s.causeBegins x c d).freeCount = s.freeCount := by
  simp [State.causeBegins]

@[simp] theorem State.causeBegins_pending (x : Subject) (c : Class) (d : Detail) : (s.causeBegins x c d).pending = s.pending := by
  simp [State.causeBegins]

@[simp] theorem State.causeBegins_elapsed (x : Subject) (c : Class) (d : Detail) : (s.causeBegins x c d).elapsed = s.elapsed := by
  simp [State.causeBegins]

@[simp] theorem State.causeBegins_stationMs (x : Subject) (c : Class) (d : Detail) : (s.causeBegins x c d).stationMs = s.stationMs := by
  simp [State.causeBegins]

@[simp] theorem State.causeBegins_quality (x : Subject) (c : Class) (d : Detail) : (s.causeBegins x c d).quality = s.quality := by
  simp [State.causeBegins]

@[simp] theorem State.causeBegins_now (x : Subject) (c : Class) (d : Detail) : (s.causeBegins x c d).now = s.now := by
  simp [State.causeBegins]

@[simp] theorem State.causeBegins_nowQ (x : Subject) (c : Class) (d : Detail) : (s.causeBegins x c d).nowQ = s.nowQ := by
  simp [State.causeBegins]

@[simp] theorem State.raiseMomentary_berthEvents (x : Subject) (c : Class) (d : Detail) : (s.raiseMomentary x c d).berthEvents = s.berthEvents := by
  simp [State.raiseMomentary]

@[simp] theorem State.raiseMomentary_answers (x : Subject) (c : Class) (d : Detail) : (s.raiseMomentary x c d).answers = s.answers := by
  simp [State.raiseMomentary]

@[simp] theorem State.raiseMomentary_sl (x : Subject) (c : Class) (d : Detail) : (s.raiseMomentary x c d).sl = s.sl := by
  simp [State.raiseMomentary]

@[simp] theorem State.raiseMomentary_settings (x : Subject) (c : Class) (d : Detail) : (s.raiseMomentary x c d).settings = s.settings := by
  simp [State.raiseMomentary]

@[simp] theorem State.raiseMomentary_source (x : Subject) (c : Class) (d : Detail) : (s.raiseMomentary x c d).source = s.source := by
  simp [State.raiseMomentary]

@[simp] theorem State.raiseMomentary_copy (x : Subject) (c : Class) (d : Detail) : (s.raiseMomentary x c d).copy = s.copy := by
  simp [State.raiseMomentary]

@[simp] theorem State.raiseMomentary_saving (x : Subject) (c : Class) (d : Detail) : (s.raiseMomentary x c d).saving = s.saving := by
  simp [State.raiseMomentary]

@[simp] theorem State.raiseMomentary_attnU (x : Subject) (c : Class) (d : Detail) : (s.raiseMomentary x c d).attnU = s.attnU := by
  simp [State.raiseMomentary]

@[simp] theorem State.raiseMomentary_attnR (x : Subject) (c : Class) (d : Detail) : (s.raiseMomentary x c d).attnR = s.attnR := by
  simp [State.raiseMomentary]

@[simp] theorem State.raiseMomentary_held (x : Subject) (c : Class) (d : Detail) : (s.raiseMomentary x c d).held = s.held := by
  simp [State.raiseMomentary]

@[simp] theorem State.raiseMomentary_freeCount (x : Subject) (c : Class) (d : Detail) : (s.raiseMomentary x c d).freeCount = s.freeCount := by
  simp [State.raiseMomentary]

@[simp] theorem State.raiseMomentary_pending (x : Subject) (c : Class) (d : Detail) : (s.raiseMomentary x c d).pending = s.pending := by
  simp [State.raiseMomentary]

@[simp] theorem State.raiseMomentary_elapsed (x : Subject) (c : Class) (d : Detail) : (s.raiseMomentary x c d).elapsed = s.elapsed := by
  simp [State.raiseMomentary]

@[simp] theorem State.raiseMomentary_stationMs (x : Subject) (c : Class) (d : Detail) : (s.raiseMomentary x c d).stationMs = s.stationMs := by
  simp [State.raiseMomentary]

@[simp] theorem State.raiseMomentary_quality (x : Subject) (c : Class) (d : Detail) : (s.raiseMomentary x c d).quality = s.quality := by
  simp [State.raiseMomentary]

@[simp] theorem State.raiseMomentary_now (x : Subject) (c : Class) (d : Detail) : (s.raiseMomentary x c d).now = s.now := by
  simp [State.raiseMomentary]

@[simp] theorem State.raiseMomentary_nowQ (x : Subject) (c : Class) (d : Detail) : (s.raiseMomentary x c d).nowQ = s.nowQ := by
  simp [State.raiseMomentary]

@[simp] theorem State.acknowledge_berthEvents (x : Subject) (c : Class) : (s.acknowledge x c).berthEvents = s.berthEvents := by
  simp [State.acknowledge]

@[simp] theorem State.acknowledge_answers (x : Subject) (c : Class) : (s.acknowledge x c).answers = s.answers := by
  simp [State.acknowledge]

@[simp] theorem State.acknowledge_sl (x : Subject) (c : Class) : (s.acknowledge x c).sl = s.sl := by
  simp [State.acknowledge]

@[simp] theorem State.acknowledge_settings (x : Subject) (c : Class) : (s.acknowledge x c).settings = s.settings := by
  simp [State.acknowledge]

@[simp] theorem State.acknowledge_source (x : Subject) (c : Class) : (s.acknowledge x c).source = s.source := by
  simp [State.acknowledge]

@[simp] theorem State.acknowledge_copy (x : Subject) (c : Class) : (s.acknowledge x c).copy = s.copy := by
  simp [State.acknowledge]

@[simp] theorem State.acknowledge_saving (x : Subject) (c : Class) : (s.acknowledge x c).saving = s.saving := by
  simp [State.acknowledge]

@[simp] theorem State.acknowledge_attnU (x : Subject) (c : Class) : (s.acknowledge x c).attnU = s.attnU := by
  simp [State.acknowledge]

@[simp] theorem State.acknowledge_attnR (x : Subject) (c : Class) : (s.acknowledge x c).attnR = s.attnR := by
  simp [State.acknowledge]

@[simp] theorem State.acknowledge_held (x : Subject) (c : Class) : (s.acknowledge x c).held = s.held := by
  simp [State.acknowledge]

@[simp] theorem State.acknowledge_freeCount (x : Subject) (c : Class) : (s.acknowledge x c).freeCount = s.freeCount := by
  simp [State.acknowledge]

@[simp] theorem State.acknowledge_pending (x : Subject) (c : Class) : (s.acknowledge x c).pending = s.pending := by
  simp [State.acknowledge]

@[simp] theorem State.acknowledge_elapsed (x : Subject) (c : Class) : (s.acknowledge x c).elapsed = s.elapsed := by
  simp [State.acknowledge]

@[simp] theorem State.acknowledge_stationMs (x : Subject) (c : Class) : (s.acknowledge x c).stationMs = s.stationMs := by
  simp [State.acknowledge]

@[simp] theorem State.acknowledge_quality (x : Subject) (c : Class) : (s.acknowledge x c).quality = s.quality := by
  simp [State.acknowledge]

@[simp] theorem State.acknowledge_now (x : Subject) (c : Class) : (s.acknowledge x c).now = s.now := by
  simp [State.acknowledge]

@[simp] theorem State.acknowledge_nowQ (x : Subject) (c : Class) : (s.acknowledge x c).nowQ = s.nowQ := by
  simp [State.acknowledge]

@[simp] theorem State.beginCause_berthEvents (x : Subject) (c : Class) (d : Detail) : (s.beginCause x c d).berthEvents = s.berthEvents := by
  simp only [State.beginCause, State.causeBegins]; split <;> simp

@[simp] theorem State.beginCause_answers (x : Subject) (c : Class) (d : Detail) : (s.beginCause x c d).answers = s.answers := by
  simp only [State.beginCause, State.causeBegins]; split <;> simp

@[simp] theorem State.beginCause_sl (x : Subject) (c : Class) (d : Detail) : (s.beginCause x c d).sl = s.sl := by
  simp only [State.beginCause, State.causeBegins]; split <;> simp

@[simp] theorem State.beginCause_settings (x : Subject) (c : Class) (d : Detail) : (s.beginCause x c d).settings = s.settings := by
  simp only [State.beginCause, State.causeBegins]; split <;> simp

@[simp] theorem State.beginCause_source (x : Subject) (c : Class) (d : Detail) : (s.beginCause x c d).source = s.source := by
  simp only [State.beginCause, State.causeBegins]; split <;> simp

@[simp] theorem State.beginCause_copy (x : Subject) (c : Class) (d : Detail) : (s.beginCause x c d).copy = s.copy := by
  simp only [State.beginCause, State.causeBegins]; split <;> simp

@[simp] theorem State.beginCause_saving (x : Subject) (c : Class) (d : Detail) : (s.beginCause x c d).saving = s.saving := by
  simp only [State.beginCause, State.causeBegins]; split <;> simp

@[simp] theorem State.beginCause_attnU (x : Subject) (c : Class) (d : Detail) : (s.beginCause x c d).attnU = s.attnU := by
  simp only [State.beginCause, State.causeBegins]; split <;> simp

@[simp] theorem State.beginCause_attnR (x : Subject) (c : Class) (d : Detail) : (s.beginCause x c d).attnR = s.attnR := by
  simp only [State.beginCause, State.causeBegins]; split <;> simp

@[simp] theorem State.beginCause_held (x : Subject) (c : Class) (d : Detail) : (s.beginCause x c d).held = s.held := by
  simp only [State.beginCause, State.causeBegins]; split <;> simp

@[simp] theorem State.beginCause_freeCount (x : Subject) (c : Class) (d : Detail) : (s.beginCause x c d).freeCount = s.freeCount := by
  simp only [State.beginCause, State.causeBegins]; split <;> simp

@[simp] theorem State.beginCause_pending (x : Subject) (c : Class) (d : Detail) : (s.beginCause x c d).pending = s.pending := by
  simp only [State.beginCause, State.causeBegins]; split <;> simp

@[simp] theorem State.beginCause_elapsed (x : Subject) (c : Class) (d : Detail) : (s.beginCause x c d).elapsed = s.elapsed := by
  simp only [State.beginCause, State.causeBegins]; split <;> simp

@[simp] theorem State.beginCause_stationMs (x : Subject) (c : Class) (d : Detail) : (s.beginCause x c d).stationMs = s.stationMs := by
  simp only [State.beginCause, State.causeBegins]; split <;> simp

@[simp] theorem State.beginCause_quality (x : Subject) (c : Class) (d : Detail) : (s.beginCause x c d).quality = s.quality := by
  simp only [State.beginCause, State.causeBegins]; split <;> simp

@[simp] theorem State.beginCause_now (x : Subject) (c : Class) (d : Detail) : (s.beginCause x c d).now = s.now := by
  simp only [State.beginCause, State.causeBegins]; split <;> simp

@[simp] theorem State.beginCause_nowQ (x : Subject) (c : Class) (d : Detail) : (s.beginCause x c d).nowQ = s.nowQ := by
  simp only [State.beginCause, State.causeBegins]; split <;> simp

@[simp] theorem State.endCause_berthEvents (x : Subject) (c : Class) : (s.endCause x c).berthEvents = s.berthEvents := by
  simp only [State.endCause]; split <;> simp

@[simp] theorem State.endCause_answers (x : Subject) (c : Class) : (s.endCause x c).answers = s.answers := by
  simp only [State.endCause]; split <;> simp

@[simp] theorem State.endCause_sl (x : Subject) (c : Class) : (s.endCause x c).sl = s.sl := by
  simp only [State.endCause]; split <;> simp

@[simp] theorem State.endCause_settings (x : Subject) (c : Class) : (s.endCause x c).settings = s.settings := by
  simp only [State.endCause]; split <;> simp

@[simp] theorem State.endCause_source (x : Subject) (c : Class) : (s.endCause x c).source = s.source := by
  simp only [State.endCause]; split <;> simp

@[simp] theorem State.endCause_copy (x : Subject) (c : Class) : (s.endCause x c).copy = s.copy := by
  simp only [State.endCause]; split <;> simp

@[simp] theorem State.endCause_saving (x : Subject) (c : Class) : (s.endCause x c).saving = s.saving := by
  simp only [State.endCause]; split <;> simp

@[simp] theorem State.endCause_attnU (x : Subject) (c : Class) : (s.endCause x c).attnU = s.attnU := by
  simp only [State.endCause]; split <;> simp

@[simp] theorem State.endCause_attnR (x : Subject) (c : Class) : (s.endCause x c).attnR = s.attnR := by
  simp only [State.endCause]; split <;> simp

@[simp] theorem State.endCause_held (x : Subject) (c : Class) : (s.endCause x c).held = s.held := by
  simp only [State.endCause]; split <;> simp

@[simp] theorem State.endCause_freeCount (x : Subject) (c : Class) : (s.endCause x c).freeCount = s.freeCount := by
  simp only [State.endCause]; split <;> simp

@[simp] theorem State.endCause_pending (x : Subject) (c : Class) : (s.endCause x c).pending = s.pending := by
  simp only [State.endCause]; split <;> simp

@[simp] theorem State.endCause_elapsed (x : Subject) (c : Class) : (s.endCause x c).elapsed = s.elapsed := by
  simp only [State.endCause]; split <;> simp

@[simp] theorem State.endCause_stationMs (x : Subject) (c : Class) : (s.endCause x c).stationMs = s.stationMs := by
  simp only [State.endCause]; split <;> simp

@[simp] theorem State.endCause_quality (x : Subject) (c : Class) : (s.endCause x c).quality = s.quality := by
  simp only [State.endCause]; split <;> simp

@[simp] theorem State.endCause_now (x : Subject) (c : Class) : (s.endCause x c).now = s.now := by
  simp only [State.endCause]; split <;> simp

@[simp] theorem State.endCause_nowQ (x : Subject) (c : Class) : (s.endCause x c).nowQ = s.nowQ := by
  simp only [State.endCause]; split <;> simp

/-! ### Subjects that are kept in one record: reports commute with what is written to the record -/

theorem State.setLink_setConds (i : Fin 4) (l : Link) (cs : CondSet) :
    (s.setLink i l).setConds (.link i) cs = s.setLink i { l with conds := cs } := by
  simp [State.setConds_link]

theorem State.setLine_setConds (i : Fin 4) (l : Line) (cs : CondSet) :
    (s.setLine i l).setConds (.line i) cs = s.setLine i { l with conds := cs } := by
  simp [State.setConds_line]

@[simp] theorem State.setLink_now (i : Fin 4) (l : Link) : (s.setLink i l).now = s.now := rfl

@[simp] theorem State.setLink_nowQ (i : Fin 4) (l : Link) : (s.setLink i l).nowQ = s.nowQ := rfl

@[simp] theorem State.setLink_elapsed (i : Fin 4) (l : Link) : (s.setLink i l).elapsed = s.elapsed := rfl

@[simp] theorem State.setLine_now (i : Fin 4) (l : Line) : (s.setLine i l).now = s.now := rfl

@[simp] theorem State.setLine_elapsed (i : Fin 4) (l : Line) : (s.setLine i l).elapsed = s.elapsed := rfl

@[simp] theorem State.setObject_now (n : Nat) (r : ObjectRec) : (s.setObject n r).now = s.now := rfl

@[simp] theorem State.setObject_elapsed (n : Nat) (r : ObjectRec) : (s.setObject n r).elapsed = s.elapsed := rfl

@[simp] theorem State.setPath_now (n : Nat) (p : PathRec) : (s.setPath n p).now = s.now := rfl

@[simp] theorem State.setPath_elapsed (n : Nat) (p : PathRec) : (s.setPath n p).elapsed = s.elapsed := rfl

/-- The link record after a cause begins at the link. -/
theorem State.beginCause_link (i : Fin 4) (l : Link) (c : Class) (d : Detail) :
    (s.setLink i l).beginCause (.link i) c d =
      s.setLink i { l with conds := if l.conds.active c then l.conds else l.conds.begun c s.now s.elapsed d } := by
  simp only [State.beginCause, State.causeActive, State.causeBegins, State.condsOf_link,
    State.link_setLink_self, State.setLink_setConds, State.setLink_now, State.setLink_elapsed]
  split <;> rfl

/-- The link record after a cause ends at the link. -/
theorem State.endCause_link (i : Fin 4) (l : Link) (c : Class) :
    (s.setLink i l).endCause (.link i) c =
      s.setLink i { l with conds := if l.conds.active c then l.conds.ended c else l.conds } := by
  simp only [State.endCause, State.causeActive, State.condsOf_link, State.link_setLink_self, State.setLink_setConds]
  split <;> rfl

/-- The link record after a momentary raise at the link. -/
theorem State.raiseMomentary_link (i : Fin 4) (l : Link) (c : Class) (d : Detail) :
    (s.setLink i l).raiseMomentary (.link i) c d =
      s.setLink i { l with conds := l.conds.raised c s.now s.elapsed d } := by
  simp only [State.raiseMomentary, State.condsOf_link, State.link_setLink_self, State.setLink_setConds,
    State.setLink_now, State.setLink_elapsed]

/-- The line record after a cause begins at the line. -/
theorem State.beginCause_line (i : Fin 4) (l : Line) (c : Class) (d : Detail) :
    (s.setLine i l).beginCause (.line i) c d =
      s.setLine i { l with conds := if l.conds.active c then l.conds else l.conds.begun c s.now s.elapsed d } := by
  simp only [State.beginCause, State.causeActive, State.causeBegins, State.condsOf_line,
    State.line_setLine_self, State.setLine_setConds, State.setLine_now, State.setLine_elapsed]
  split <;> rfl

/-- The line record after a cause ends at the line. -/
theorem State.endCause_line (i : Fin 4) (l : Line) (c : Class) :
    (s.setLine i l).endCause (.line i) c =
      s.setLine i { l with conds := if l.conds.active c then l.conds.ended c else l.conds } := by
  simp only [State.endCause, State.causeActive, State.condsOf_line, State.line_setLine_self, State.setLine_setConds]
  split <;> rfl

/-- An outcome that answers a state: brought up to date and nothing more. -/
theorem State.answer_eq (s : State) : s.answer = .next s.settle := rfl

theorem State.whenRunning_of {f : State → State} (h : s.held = false) : s.whenRunning f = f s := by
  simp [State.whenRunning, h]

theorem State.whenRunning_held {f : State → State} (h : s.held = true) : s.whenRunning f = s := by
  simp [State.whenRunning, h]

end Sys2Proof.Machine
end

