-- ==== Sys2Proof/Laws/Conditions.lean ====
section
/-! SUPPORT. What a condition set holds after each transition of Table 8-1a (R154, R155), and what an object's or a
path's record reads after a report against it. -/

namespace Sys2Proof.Machine

/-! ### Finding a class -/

theorem Class.order_injective {a b : Class} (h : a.order = b.order) : a = b := by
  revert h; cases a <;> cases b <;> decide

@[simp] theorem CondSet.find_put_self (cs : CondSet) (x : Condition) : (cs.put x).find x.cls = some x := by
  induction cs with
  | nil => simp [CondSet.put, CondSet.find]
  | cons y t ih =>
    simp only [CondSet.put]
    split
    · simp [CondSet.find]
    · split
      · simp [CondSet.find]
      · rename_i _ h
        simpa [CondSet.find, Ne.symm h] using ih

theorem CondSet.find_put_ne (cs : CondSet) (x : Condition) {c : Class} (h : x.cls ≠ c) :
    (cs.put x).find c = cs.find c := by
  induction cs with
  | nil => simp [CondSet.put, CondSet.find, h]
  | cons y t ih =>
    simp only [CondSet.put]
    split
    · simp [CondSet.find, h]
    · split
      · rename_i _ e
        simp [CondSet.find, h, ← e]
      · simp only [CondSet.find] at ih
        simp only [CondSet.find, List.find?_cons, ih]

@[simp] theorem CondSet.find_drop_self (cs : CondSet) (c : Class) : (cs.drop c).find c = none := by
  simp [CondSet.drop, CondSet.find]

theorem CondSet.find_drop_ne (cs : CondSet) {c d : Class} (h : c ≠ d) : (cs.drop c).find d = cs.find d := by
  induction cs with
  | nil => rfl
  | cons y t ih =>
    simp only [CondSet.drop, CondSet.find] at ih ⊢
    by_cases e : y.cls = c
    · subst e
      simpa [h] using ih
    · by_cases e' : y.cls = d
      · simp [e', Ne.symm h]
      · simpa [List.filter_cons, e, e'] using ih

theorem CondSet.mem_put {cs : CondSet} {x y : Condition} (h : y ∈ (cs.put x : List Condition)) : y = x ∨ y ∈ cs := by
  induction cs with
  | nil => simpa [CondSet.put] using h
  | cons z t ih =>
    simp only [CondSet.put] at h
    split at h
    · simpa using h
    · split at h
      · rcases List.mem_cons.mp h with h | h
        · exact .inl h
        · exact .inr (List.mem_cons_of_mem _ h)
      · rcases List.mem_cons.mp h with h | h
        · exact .inr (h ▸ List.mem_cons_self ..)
        · rcases ih h with h | h
          · exact .inl h
          · exact .inr (List.mem_cons_of_mem _ h)

theorem CondSet.cls_of_find {cs : CondSet} {c : Class} {x : Condition} (h : cs.find c = some x) : x.cls = c := by
  simpa using List.find?_some h

/-! ### Transitions -/

/-- A cause that begins makes the condition ACTIVE_UNACK, with the date, mark and detail of this raise. -/
theorem CondSet.find_begun (cs : CondSet) (c : Class) (date : Date) (mark : Nat) (detail : Detail) :
    ∃ count, (cs.begun c date mark detail).find c = some ⟨c, .activeUnack, date, mark, detail, count⟩ :=
  ⟨_, CondSet.find_put_self ..⟩

theorem CondSet.find_begun_ne (cs : CondSet) {c d : Class} (date : Date) (mark : Nat) (detail : Detail) (h : c ≠ d) :
    (cs.begun c date mark detail).find d = cs.find d := CondSet.find_put_ne _ _ h

theorem CondSet.active_begun (cs : CondSet) (c : Class) (date : Date) (mark : Nat) (detail : Detail) :
    (cs.begun c date mark detail).active c = true := by
  obtain ⟨count, h⟩ := cs.find_begun c date mark detail
  simp [CondSet.active, h, CondState.active]

/-- A momentary raise makes the condition CLEAR_UNACK, with the date, mark and detail of this raise. -/
theorem CondSet.find_raised (cs : CondSet) (c : Class) (date : Date) (mark : Nat) (detail : Detail) :
    ∃ count, (cs.raised c date mark detail).find c = some ⟨c, .clearUnack, date, mark, detail, count⟩ :=
  ⟨_, CondSet.find_put_self ..⟩

theorem CondSet.find_raised_ne (cs : CondSet) {c d : Class} (date : Date) (mark : Nat) (detail : Detail)
    (h : c ≠ d) : (cs.raised c date mark detail).find d = cs.find d := CondSet.find_put_ne _ _ h

/-- A cause that ends turns ACTIVE_UNACK into CLEAR_UNACK and removes ACTIVE_ACK. -/
theorem CondSet.find_ended (cs : CondSet) (c : Class) :
    (cs.ended c).find c = (cs.find c).bind fun x =>
      match x.state with
      | .activeUnack => some { x with state := .clearUnack }
      | .activeAck => none
      | .clearUnack => some x := by
  cases h : cs.find c with
  | none => simp [CondSet.ended, h]
  | some x =>
    have hc := CondSet.cls_of_find h
    subst hc
    cases hs : x.state
    · simp only [CondSet.ended, h, hs, Option.bind_some]
      exact CondSet.find_put_self cs { x with state := .clearUnack }
    · simp [CondSet.ended, h, hs]
    · simp [CondSet.ended, h, hs]

theorem CondSet.find_ended_ne (cs : CondSet) {c d : Class} (h : c ≠ d) : (cs.ended c).find d = cs.find d := by
  cases hf : cs.find c with
  | none => simp [CondSet.ended, hf]
  | some x =>
    have hc := CondSet.cls_of_find hf
    subst hc
    cases hs : x.state
    · simp only [CondSet.ended, hf, hs]
      exact CondSet.find_put_ne cs { x with state := .clearUnack } h
    · simp only [CondSet.ended, hf, hs]
      exact CondSet.find_drop_ne cs h
    · simp only [CondSet.ended, hf, hs]

@[simp] theorem CondSet.active_ended (cs : CondSet) (c : Class) : (cs.ended c).active c = false := by
  rw [CondSet.active, CondSet.find_ended]
  cases h : cs.find c with
  | none => rfl
  | some x => cases hs : x.state <;> simp [hs, CondState.active]

/-- An acknowledgement turns ACTIVE_UNACK into ACTIVE_ACK and removes CLEAR_UNACK. -/
theorem CondSet.find_acknowledged (cs : CondSet) (c : Class) :
    (cs.acknowledged c).find c = (cs.find c).bind fun x =>
      match x.state with
      | .activeUnack => some { x with state := .activeAck }
      | .activeAck => some x
      | .clearUnack => none := by
  cases h : cs.find c with
  | none => simp [CondSet.acknowledged, h]
  | some x =>
    have hc := CondSet.cls_of_find h
    subst hc
    cases hs : x.state
    · simp only [CondSet.acknowledged, h, hs, Option.bind_some]
      exact CondSet.find_put_self cs { x with state := .activeAck }
    · simp [CondSet.acknowledged, h, hs]
    · simp [CondSet.acknowledged, h, hs]

theorem CondSet.find_acknowledged_ne (cs : CondSet) {c d : Class} (h : c ≠ d) :
    (cs.acknowledged c).find d = cs.find d := by
  cases hf : cs.find c with
  | none => simp [CondSet.acknowledged, hf]
  | some x =>
    have hc := CondSet.cls_of_find hf
    subst hc
    cases hs : x.state
    · simp only [CondSet.acknowledged, hf, hs]
      exact CondSet.find_put_ne cs { x with state := .activeAck } h
    · simp only [CondSet.acknowledged, hf, hs]
    · simp only [CondSet.acknowledged, hf, hs]
      exact CondSet.find_drop_ne cs h

/-! ### Class order (R153): every transition keeps it -/

theorem CondSet.Ordered.nil : CondSet.Ordered [] := List.Pairwise.nil

theorem CondSet.Ordered.put {cs : CondSet} (h : cs.Ordered) (x : Condition) : (cs.put x).Ordered := by
  induction cs with
  | nil => exact List.pairwise_singleton _ _
  | cons y t ih =>
    obtain ⟨first, rest⟩ := List.pairwise_cons.mp h
    simp only [CondSet.put]
    split
    · rename_i below
      refine List.pairwise_cons.mpr ⟨fun z hz => ?_, h⟩
      rcases List.mem_cons.mp hz with rfl | hz
      · exact below
      · exact Fin.lt_trans below (first z hz)
    · rename_i notBelow
      split
      · rename_i same
        exact List.pairwise_cons.mpr ⟨fun z hz => same ▸ first z hz, rest⟩
      · rename_i other
        refine List.pairwise_cons.mpr ⟨fun z hz => ?_, ih rest⟩
        rcases CondSet.mem_put hz with rfl | hz
        · rcases Nat.lt_trichotomy y.cls.order.val z.cls.order.val with l | e | g
          · exact l
          · exact absurd (Class.order_injective (Fin.ext e)).symm other
          · exact absurd g notBelow
        · exact first z hz

theorem CondSet.Ordered.drop {cs : CondSet} (h : cs.Ordered) (c : Class) : (cs.drop c).Ordered := List.Pairwise.filter _ h

theorem CondSet.Ordered.begun {cs : CondSet} (h : cs.Ordered) (c : Class) (date : Date) (mark : Nat) (detail : Detail) :
    (cs.begun c date mark detail).Ordered := h.put _

theorem CondSet.Ordered.raised {cs : CondSet} (h : cs.Ordered) (c : Class) (date : Date) (mark : Nat)
    (detail : Detail) : (cs.raised c date mark detail).Ordered := h.put _

theorem CondSet.Ordered.ended {cs : CondSet} (h : cs.Ordered) (c : Class) : (cs.ended c).Ordered := by
  unfold CondSet.ended
  split
  · exact h
  · split
    · exact h.put _
    · exact h.drop c
    · exact h

theorem CondSet.Ordered.acknowledged {cs : CondSet} (h : cs.Ordered) (c : Class) : (cs.acknowledged c).Ordered := by
  unfold CondSet.acknowledged
  split
  · exact h
  · split
    · exact h.put _
    · exact h
    · exact h.drop c

/-! ### The sets after the owners' reports -/

/-- A cause begun now is dated as the part stands. -/
theorem State.withCause_eq (s : State) (cs : CondSet) (c : Class) (detail : Detail) :
    s.withCause cs c detail = if cs.active c then cs else cs.begun c s.now s.elapsed detail := rfl

@[simp] theorem State.active_withCause (s : State) (cs : CondSet) (c : Class) (detail : Detail) :
    (s.withCause cs c detail).active c = true := by
  rw [State.withCause_eq]
  split
  · assumption
  · exact cs.active_begun c _ _ detail

@[simp] theorem CondSet.active_without (cs : CondSet) (c : Class) : (cs.without c).active c = false := by
  unfold CondSet.without
  split
  · simp
  · rename_i h
    simpa using h

theorem State.find_withCause_ne (s : State) (cs : CondSet) {c d : Class} (detail : Detail) (h : c ≠ d) :
    (s.withCause cs c detail).find d = cs.find d := by
  rw [State.withCause_eq]
  split
  · rfl
  · exact cs.find_begun_ne _ _ detail h

theorem CondSet.find_without_ne (cs : CondSet) {c d : Class} (h : c ≠ d) : (cs.without c).find d = cs.find d := by
  unfold CondSet.without
  split
  · exact cs.find_ended_ne h
  · rfl

/-- A report against any subject keeps every set in class order, where the new set is in order. -/
theorem State.condsOrdered_setConds {s : State} (h : s.condsOrdered) (x : Subject) {cs : CondSet} (ordered : cs.Ordered) :
    (s.setConds x cs).condsOrdered := by
  obtain ⟨base, links, lines, objects, paths⟩ := h
  cases x with
  | timeBase => exact ⟨ordered, links, lines, objects, paths⟩
  | link i =>
    refine ⟨base, fun j => ?_, lines, objects, paths⟩
    rw [State.setConds_link]
    by_cases e : i = j
    · subst e
      simpa using ordered
    · simpa [State.link_setLink_ne s _ e] using links j
  | line i =>
    refine ⟨base, links, fun j => ?_, objects, paths⟩
    rw [State.setConds_line]
    by_cases e : i = j
    · subst e
      simpa using ordered
    · simpa [State.line_setLine_ne s _ e] using lines j
  | object n =>
    simp only [State.setConds, State.onObject]
    split
    · refine ⟨base, links, lines, fun e he => ?_, paths⟩
      rcases Store.mem_set he with rfl | he
      · exact ordered
      · exact objects e he
    · exact ⟨base, links, lines, objects, paths⟩
  | path n =>
    simp only [State.setConds, State.onPath]
    split
    · refine ⟨base, links, lines, objects, fun e he => ?_⟩
      rcases Store.mem_set he with rfl | he
      · exact ordered
      · exact paths e he
    · exact ⟨base, links, lines, objects, paths⟩

theorem State.ordered_condsOf {s : State} (h : s.condsOrdered) (x : Subject) : (s.condsOf x).Ordered := by
  obtain ⟨base, links, lines, objects, paths⟩ := h
  cases x with
  | timeBase => exact base
  | link i => exact links i
  | line i => exact lines i
  | object n =>
    simp only [State.condsOf]
    cases found : s.object n with
    | none => exact .nil
    | some r => exact objects (n, r) (Store.mem_of_get found)
  | path n =>
    simp only [State.condsOf]
    cases found : s.path n with
    | none => exact .nil
    | some p => exact paths (n, p) (Store.mem_of_get found)

theorem State.condsOrdered_causeBegins {s : State} (h : s.condsOrdered) (x : Subject) (c : Class) (d : Detail) :
    (s.causeBegins x c d).condsOrdered := State.condsOrdered_setConds h x ((State.ordered_condsOf h x).begun ..)

theorem State.condsOrdered_beginCause {s : State} (h : s.condsOrdered) (x : Subject) (c : Class) (d : Detail) :
    (s.beginCause x c d).condsOrdered := by
  unfold State.beginCause
  split
  · exact h
  · exact State.condsOrdered_causeBegins h x c d

theorem State.condsOrdered_endCause {s : State} (h : s.condsOrdered) (x : Subject) (c : Class) :
    (s.endCause x c).condsOrdered := by
  unfold State.endCause
  split
  · exact State.condsOrdered_setConds h x ((State.ordered_condsOf h x).ended c)
  · exact h

theorem State.condsOrdered_raiseMomentary {s : State} (h : s.condsOrdered) (x : Subject) (c : Class) (d : Detail) :
    (s.raiseMomentary x c d).condsOrdered :=
  State.condsOrdered_setConds h x ((State.ordered_condsOf h x).raised ..)

theorem State.condsOrdered_acknowledge {s : State} (h : s.condsOrdered) (x : Subject) (c : Class) :
    (s.acknowledge x c).condsOrdered := State.condsOrdered_setConds h x ((State.ordered_condsOf h x).acknowledged c)

theorem CondSet.active_of_find {cs cs' : CondSet} {c : Class} (h : cs.find c = cs'.find c) :
    cs.active c = cs'.active c := by simp [CondSet.active, h]

/-! ### What records read -/

variable (s : State)

/-- A report against an object leaves everything but the table and the watch slots. -/
theorem State.setConds_object_frame (n : Nat) (cs : CondSet) :
    s.setConds (.object n) cs =
      { s with objects := (s.setConds (.object n) cs).objects, watch := (s.setConds (.object n) cs).watch } := by
  simp only [State.setConds, State.onObject]
  split <;> rfl

/-- A report against a path leaves everything but the store and the watch slots. -/
theorem State.setConds_path_frame (n : Nat) (cs : CondSet) :
    s.setConds (.path n) cs =
      { s with
        tc := { s.tc with paths := (s.setConds (.path n) cs).tc.paths }
        watch := (s.setConds (.path n) cs).watch } := by
  simp only [State.setConds, State.onPath]
  split <;> rfl

@[simp] theorem State.object_setConds_self (n : Nat) (cs : CondSet) :
    (s.setConds (.object n) cs).object n = (s.object n).map fun r => { r with conds := cs } := by
  simp only [State.setConds, State.onObject, State.object_report]
  cases h : s.object n with
  | none => simp [h]
  | some r => simp

theorem State.object_setConds_ne {n k : Nat} (cs : CondSet) (h : n ≠ k) :
    (s.setConds (.object n) cs).object k = s.object k := by
  simp only [State.setConds, State.onObject, State.object_report]
  cases s.object n with
  | none => rfl
  | some r => exact State.object_setObject_ne s _ h

@[simp] theorem State.path_setConds_self (n : Nat) (cs : CondSet) :
    (s.setConds (.path n) cs).path n = (s.path n).map fun p => { p with conds := cs } := by
  simp only [State.setConds, State.onPath, State.path_report]
  cases h : s.path n with
  | none => simp [h]
  | some r => simp

theorem State.path_setConds_ne {n k : Nat} (cs : CondSet) (h : n ≠ k) :
    (s.setConds (.path n) cs).path k = s.path k := by
  simp only [State.setConds, State.onPath, State.path_report]
  cases s.path n with
  | none => rfl
  | some r => exact State.path_setPath_ne s _ h

@[simp] theorem State.object_setConds_path (n k : Nat) (cs : CondSet) :
    (s.setConds (.path n) cs).object k = s.object k := by
  rw [State.setConds_path_frame]; rfl

@[simp] theorem State.path_setConds_object (n k : Nat) (cs : CondSet) :
    (s.setConds (.object n) cs).path k = s.path k := by
  rw [State.setConds_object_frame]; rfl

variable {s} {n : Nat}

/-- The record of an object after a cause ends at it. -/
theorem State.object_endCause {r : ObjectRec} (h : s.object n = some r) (c : Class) :
    (s.endCause (.object n) c).object n = some { r with conds := r.conds.without c } := by
  simp only [State.endCause, State.causeActive, State.condsOf_object s h, CondSet.without]
  split <;> simp [h]

/-- The record of an object after a cause begins at it. -/
theorem State.object_beginCause {r : ObjectRec} (h : s.object n = some r) (c : Class) (d : Detail) :
    (s.beginCause (.object n) c d).object n =
      some { r with conds := s.withCause r.conds c d } := by
  simp only [State.beginCause, State.causeActive, State.causeBegins, State.condsOf_object s h, State.withCause_eq]
  split <;> simp [h]

/-- The record of an object after a momentary raise at it. -/
theorem State.object_raiseMomentary {r : ObjectRec} (h : s.object n = some r) (c : Class) (d : Detail) :
    (s.raiseMomentary (.object n) c d).object n =
      some { r with conds := r.conds.raised c s.now s.elapsed d } := by
  simp [State.raiseMomentary, State.condsOf_object s h, h]

theorem State.object_endCause_ne {k : Nat} (c : Class) (h : n ≠ k) :
    (s.endCause (.object n) c).object k = s.object k := by
  simp only [State.endCause]
  split
  · exact s.object_setConds_ne _ h
  · rfl

theorem State.object_beginCause_ne {k : Nat} (c : Class) (d : Detail) (h : n ≠ k) :
    (s.beginCause (.object n) c d).object k = s.object k := by
  simp only [State.beginCause]
  split
  · rfl
  · exact s.object_setConds_ne _ h

/-- The record of a path after a cause ends at it. -/
theorem State.path_endCause {p : PathRec} (h : s.path n = some p) (c : Class) :
    (s.endCause (.path n) c).path n = some { p with conds := p.conds.without c } := by
  simp only [State.endCause, State.causeActive, State.condsOf_path s h, CondSet.without]
  split <;> simp [h]

/-- What the end of a cause at a path does. -/
theorem State.endCause_path {p : PathRec} (h : s.path n = some p) (c : Class) :
    s.endCause (.path n) c =
      if p.conds.active c then (s.setPath n { p with conds := p.conds.ended c }).report (.path n) else s := by
  simp only [State.endCause, State.causeActive, State.condsOf_path s h, State.setConds, State.onPath, h]

/-- What the beginning of a cause at a path does. -/
theorem State.beginCause_path {p : PathRec} (h : s.path n = some p) (c : Class) (d : Detail) :
    s.beginCause (.path n) c d =
      if p.conds.active c then s
      else (s.setPath n { p with conds := p.conds.begun c s.now s.elapsed d }).report (.path n) := by
  simp only [State.beginCause, State.causeActive, State.causeBegins, State.condsOf_path s h, State.setConds,
    State.onPath, h]

/-- The record of a path after a cause begins at it. -/
theorem State.path_beginCause {p : PathRec} (h : s.path n = some p) (c : Class) (d : Detail) :
    (s.beginCause (.path n) c d).path n = some { p with conds := s.withCause p.conds c d } := by
  simp only [State.beginCause, State.causeActive, State.causeBegins, State.condsOf_path s h, State.withCause_eq]
  split <;> simp [h]

/-- The record of a path after a momentary raise at it. -/
theorem State.path_raiseMomentary {p : PathRec} (h : s.path n = some p) (c : Class) (d : Detail) :
    (s.raiseMomentary (.path n) c d).path n = some { p with conds := p.conds.raised c s.now s.elapsed d } := by
  simp [State.raiseMomentary, State.condsOf_path s h, h]

/-- A report against an object leaves everything but the table and the watch slots. -/
theorem State.endCause_object_frame (c : Class) :
    s.endCause (.object n) c =
      { s with objects := (s.endCause (.object n) c).objects, watch := (s.endCause (.object n) c).watch } := by
  simp only [State.endCause]
  split
  · exact s.setConds_object_frame n _
  · rfl

theorem State.beginCause_object_frame (c : Class) (d : Detail) :
    s.beginCause (.object n) c d =
      { s with
        objects := (s.beginCause (.object n) c d).objects
        watch := (s.beginCause (.object n) c d).watch } := by
  simp only [State.beginCause]
  split
  · rfl
  · exact s.setConds_object_frame n _

theorem State.raiseMomentary_object_frame (c : Class) (d : Detail) :
    s.raiseMomentary (.object n) c d =
      { s with
        objects := (s.raiseMomentary (.object n) c d).objects
        watch := (s.raiseMomentary (.object n) c d).watch } := s.setConds_object_frame n _

/-! ### The Time Base's conditions -/

/-- The end of a cause at the Time Base changes its condition set alone. -/
theorem State.endCause_timeBase (c : Class) :
    s.endCause .timeBase c = { s with tb := { s.tb with conds := s.tb.conds.without c } } := by
  simp only [State.endCause, State.causeActive, State.condsOf, CondSet.without]
  by_cases h : s.tb.conds.active c = true
  · simp only [h, if_true]
    rfl
  · simp only [h, Bool.false_eq_true, if_false]

/-- The beginning of a cause at the Time Base changes its condition set alone. -/
theorem State.beginCause_timeBase (c : Class) (d : Detail) :
    s.beginCause .timeBase c d =
      { s with tb := { s.tb with conds := s.withCause s.tb.conds c d } } := by
  simp only [State.beginCause, State.causeActive, State.condsOf, State.withCause_eq]
  by_cases h : s.tb.conds.active c = true
  · simp only [h, if_true]
  · simp only [h, Bool.false_eq_true, if_false]
    rfl

end Sys2Proof.Machine
end

