-- ==== Sys2Proof/Laws/Lines.lean ====
section
/-! SUPPORT. What an evaluation and the end of an impulse make of a line: an evaluated line differs in its state
alone, and the end of an impulse leaves `State.lineAfter`. -/

namespace Sys2Proof.Machine

variable {s : State} {i : Fin 4}

/-! ### Evaluation (R138) -/

theorem DialKind.distance_eq (k : DialKind) (start stop : Nat) :
    (k.distance start stop : Int) = ((stop : Int) - start).emod k.positions :=
  Int.toNat_of_nonneg (Int.emod_nonneg _ (by cases k <;> decide))

theorem State.judgeLine_eq (position : Nat) (last : Polarity) :
    s.judgeLine i (s.line i) position last = s.evaluatedLine i position last := by
  simp only [State.judgeLine, State.evaluatedLine, State.impulse, State.elapsed, DialKind.target]
  have ahead := (s.line i).kind.distance_eq (s.civilMs / (s.line i).kind.unit % (s.line i).kind.positions) position
  have behind := (s.line i).kind.distance_eq position (s.civilMs / (s.line i).kind.unit % (s.line i).kind.positions)
  have window : (s.line i).kind.window (s.settings.holdWindow.get i) = match (s.line i).kind with
      | .minute => s.settings.holdWindow.get i
      | .halfMinute => s.settings.holdWindow.get i * 2 := by cases (s.line i).kind <;> rfl
  rw [← ahead, ← behind, window]
  cases s.tb.timeValid
  · simp
  · simp only [Bool.not_true, Bool.false_eq_true, if_false, Nat.cast_eq_zero, Bool.true_eq_false, Nat.one_le_cast]
    rfl

theorem State.decision_at {position : Nat} {last : Polarity} (h : (s.line i).dial = .at position last) :
    s.decision i = s.evaluatedLine i position last := by
  simp only [State.decision, h, State.judgeLine_eq]

/-- A line with a set position evaluates: its state becomes what R138 decides. -/
theorem State.evaluate_at {position : Nat} {last : Polarity} (h : (s.line i).dial = .at position last) :
    s.evaluate i = s.setLine i { s.line i with state := s.evaluatedLine i position last } := by
  rw [State.evaluate, State.onLine, State.decision_at h]

/-- An evaluation reads the settings, station time, the elapsed count, and the line's kind and resolving flag. -/
theorem State.evaluatedLine_setLine (l : Line) (position : Nat) (last : Polarity)
    (kind : l.kind = (s.line i).kind) (resolving : l.resolving = (s.line i).resolving) :
    (s.setLine i l).evaluatedLine i position last = s.evaluatedLine i position last := by
  simp only [State.evaluatedLine, State.line_setLine_self, kind, resolving]
  rfl

/-! ### The end of an impulse (R147, R148) -/

theorem State.disableLine_setLine (l : Line) :
    (s.setLine i l).disableLine i = s.setLine i
      { l with enabled := false, state := .off, conds := (l.conds.without .lineFault).without .dialUnset } := by
  simp only [State.disableLine, State.onLine, State.line_setLine_self, State.setLine_setLine, State.endCause_line]
  rfl

/-- A kind change at a line: LINE_FAULT ends, and DIAL_UNSET is active at an enabled line. -/
theorem State.changeKind_setLine (l : Line) (k : DialKind) :
    (s.setLine i l).changeKind i k = s.setLine i { l.rekinded k with
      conds :=
        if l.enabled then s.withCause (l.conds.without .lineFault) .dialUnset (.dialUnset k .kindChange)
        else l.conds.without .lineFault } := by
  cases h : l.enabled <;>
    simp only [State.changeKind, State.onLine, State.line_setLine_self, State.setLine_setLine, State.endCause_line, h,
      Bool.false_eq_true, if_false, if_true, State.beginDialUnset, State.beginCause_line] <;> rfl

/-- The end of an impulse leaves `State.lineAfter`. -/
theorem State.restAfter_setLine (l : Line) (rest : LineState) :
    (s.setLine i l).restAfter i rest = s.setLine i (s.lineAfter i l rest) := by
  have settings : ∀ x, (s.setLine i x).settings = s.settings := fun _ => rfl
  cases he : s.settings.lineEnable.get i <;> by_cases hk : s.settings.dialKind.get i = l.kind <;>
    simp only [State.restAfter, State.onLine, State.line_setLine_self, State.setLine_setLine, settings, he, hk,
      Bool.false_eq_true, if_true, if_false, State.applyKind, State.disableLine_setLine, State.changeKind_setLine,
      State.lineAfter, Line.rekinded]

/-- With nothing deferred, a line is at rest as given when its impulse ends. -/
theorem State.lineAfter_same (l : Line) (rest : LineState) (enabled : s.settings.lineEnable.get i = true)
    (kind : s.settings.dialKind.get i = l.kind) : s.lineAfter i l rest = { l with state := rest } := by
  simp [State.lineAfter, enabled, kind]

/-- LINE_FAULT stands over the end of an impulse exactly where nothing was deferred over it (R147, R148). -/
theorem State.lineFault_lineAfter (l : Line) (rest : LineState) :
    (s.lineAfter i l rest).conds.active .lineFault = true ↔
      l.conds.active .lineFault = true ∧
        ¬ (s.settings.lineEnable.get i = false ∨ s.settings.dialKind.get i ≠ l.kind) := by
  have off : ((l.conds.without .lineFault).without .dialUnset).active .lineFault = false := by
    rw [CondSet.active_of_find (CondSet.find_without_ne _ (by decide)), CondSet.active_without]
  have rekinded : ∀ d, (s.withCause (l.conds.without .lineFault) .dialUnset d).active .lineFault = false := fun d => by
    rw [CondSet.active_of_find (s.find_withCause_ne _ d (by decide)), CondSet.active_without]
  cases he : s.settings.lineEnable.get i <;> cases hl : l.enabled <;> by_cases hk : s.settings.dialKind.get i = l.kind <;>
    simp [State.lineAfter, he, hl, hk, off, rekinded]

end Sys2Proof.Machine
end

