-- ==== Sys2Proof/Laws/Requests.lean ====
section
/-! SUPPORT. What a request frame can do: it is served, left in work, discarded, answered by the Service Link, or without
effect. Statements about a request cite these instead of unfolding the Service Link. -/

namespace Sys2Proof.Machine

variable {s : State} {code : ReqCode} {f : ReqFrame} {serve : State → Reply}

/-! ### What is kept of a frame (R168) -/

theorem length_collect (f : Frame) : (collect f).body.length ≤ 1024 := by
  simp [collect, Config.maxBody]

/-- Of a frame that passes the checks every byte was kept. -/
theorem collect_body_of_ok {f : Frame} (ok : frameOk code (collect f) = true) : (collect f).body = f.body := by
  simp only [frameOk, Bool.and_eq_true, decide_eq_true_iff] at ok
  have agrees : f.len.toNat = f.body.length := ok.1.1.2
  exact List.take_of_length_le (agrees ▸ ok.1.1.1)

/-- The checks of R171 by the frame as it was shifted in. -/
theorem frameOk_collect {f : Frame} : frameOk code (collect f) = true ↔
    f.len.toNat ≤ 1024 ∧ f.len.toNat = f.body.length ∧ f.body.length = bodyLength f.body code ∧
      presenceOk f.body code = true := by
  constructor
  · intro ok
    have kept := collect_body_of_ok ok
    simp only [frameOk, kept, Bool.and_eq_true, decide_eq_true_iff, and_assoc] at ok
    exact ok
  · rintro ⟨short, agrees, long, presence⟩
    have kept : (collect f).body = f.body := List.take_of_length_le (by simp only [Config.maxBody]; omega)
    simp only [frameOk, kept, Bool.and_eq_true, decide_eq_true_iff, and_assoc]
    exact ⟨short, agrees, long, presence⟩

/-- The frame that stands for a collected one is collected as it is. -/
theorem collect_frame (f : Frame) : collect (collect f).frame = collect f := by
  simp only [collect, Collected.frame, Collected.mk.injEq, true_and]
  constructor
  · rw [List.take_append, List.take_take, Nat.min_self]
    by_cases h : f.body.length ≤ Config.maxBody
    · simp [Nat.min_eq_right h]
    · have : (f.body.take Config.maxBody).length = Config.maxBody := by simp; omega
      simp [this]
  · simp

/-! ### The transaction (R170) -/

/-- A reply is made pending: nothing of its records is touched. -/
theorem State.makeReady_eq (t : State) (code : ReqCode) (f : ReqFrame) (status : Status) (body : Body) :
    Reply.makeReady ⟨t, status, body⟩ (.request code (collect f.toFrame)) false (List.replicate (4 + f.body.length) 0) =
      t.withReply code f status body := rfl

/-- A frame served in the event of its admission is judged as the records stand. -/
theorem State.request_judged (whole : f.phase = .whole) (held : s.held = false)
    (closed : s.sl.transaction = .closed) :
    s.request code f serve = (judge code (collect f.toFrame) serve s).makeReady (.request code (collect f.toFrame)) false
      (List.replicate (4 + f.body.length) 0) := by
  simp [State.request, State.takeFrame, State.writeFrame, whole, held, closed]

/-- A frame left in work: the transaction holds it, and zeros are shifted out. -/
theorem State.request_written (write : f.phase = .write) (held : s.held = false)
    (closed : s.sl.transaction = .closed) :
    s.request code f serve =
      (s.withTransaction (.inWork (.request code (collect f.toFrame)) false)).shiftZeros (4 + f.body.length) := by
  simp [State.request, State.takeFrame, State.writeFrame, write, held, closed]

/-- The service of the frame in work judges it as the records stand then. -/
theorem State.request_inWork {lost : Bool} (service : f.phase = .service) (held : s.held = false)
    (inWork : s.sl.transaction = .inWork (.request code (collect f.toFrame)) lost) :
    s.request code f serve = (judge code (collect f.toFrame) serve (s.withTransaction .closed)).makeReady
      (.request code (collect f.toFrame)) lost s.sl.out := by
  simp [State.request, State.takeFrame, State.serveFrame, service, held, inWork]

/-- A frame written while RESTART_N is held has no effect (R180). -/
theorem State.request_held (held : s.held = true) : s.request code f serve = s := by
  simp [State.request, State.takeFrame, held]

/-- A frame written while a response is pending is discarded (R170). -/
theorem State.request_discarded {r : Response} (written : f.phase ≠ .service) (held : s.held = false)
    (pending : s.sl.transaction = .pending r) :
    s.request code f serve = { s with sl := { s.sl with
      transaction := .pending { r with lostRequest := true }
      out := List.replicate (4 + f.body.length) 0 } } := by
  cases h : f.phase with
  | whole => simp [State.request, State.takeFrame, State.writeFrame, h, held, pending, State.withTransaction,
      State.shiftZeros]
  | write => simp [State.request, State.takeFrame, State.writeFrame, h, held, pending, State.withTransaction,
      State.shiftZeros]
  | service => exact absurd h written

/-- A frame written while another is in work is discarded, and LOST_REQUEST recorded (R170). -/
theorem State.request_lost {work : InWork} {lost : Bool} (written : f.phase ≠ .service) (held : s.held = false)
    (inWork : s.sl.transaction = .inWork work lost) :
    s.request code f serve = { s with sl := { s.sl with
      transaction := .inWork work true
      out := List.replicate (4 + f.body.length) 0 } } := by
  cases h : f.phase with
  | whole => simp [State.request, State.takeFrame, State.writeFrame, h, held, inWork, State.withTransaction,
      State.shiftZeros]
  | write => simp [State.request, State.takeFrame, State.writeFrame, h, held, inWork, State.withTransaction,
      State.shiftZeros]
  | service => exact absurd h written

/-! ### The checks of R171 and R175 -/

/-- An admitted frame that passes the checks of R171 reaches its owner. -/
theorem State.request_served (h : s.admits code f) :
    s.request code f serve =
      (serve s).makeReady (.request code (collect f.toFrame)) false (List.replicate (4 + f.body.length) 0) := by
  obtain ⟨whole, held, closed, ok, long⟩ := h
  rw [State.request_judged whole held closed]
  cases hl : isLong code
  · simp [judge, ok, hl]
  · simp [judge, ok, hl, long hl]

/-- A frame that fails check 2 or 3 of R171. -/
theorem State.request_malformed (whole : f.phase = .whole) (held : s.held = false)
    (closed : s.sl.transaction = .closed) (bad : frameOk code (collect f.toFrame) = false) :
    s.request code f serve = s.withReply code f .badRequest .none := by
  rw [State.request_judged whole held closed, judge, if_pos (by simp [bad]), State.makeReady_eq]

/-- A long request while a long operation is in flight (R171, R172). -/
theorem State.request_busy (whole : f.phase = .whole) (held : s.held = false) (closed : s.sl.transaction = .closed)
    (ok : frameOk code (collect f.toFrame) = true) (long : isLong code = true) (busy : s.sl.slot.busy = true) :
    s.request code f serve = s.withReply code f .busy .none := by
  rw [State.request_judged whole held closed, judge, if_neg (by simp [ok]), if_pos (by simp [long, busy]),
    State.makeReady_eq]

/-- A change request that its owner accepts. -/
theorem State.request_accepted {edit : State → Edit} {t : State} {status : Status} {body : Body}
    (h : s.admitsEdit code f) (accepts : edit s = .accept t status body) :
    s.request code f (change code f.tag edit) = t.withReply code f status body := by
  rw [State.request_served h.1, change, if_neg (by simp [h.2]), accepts, State.makeReady_eq]

/-- A change request that its owner refuses: the latch is set by a latching refusal (R174). -/
theorem State.request_refused {edit : State → Edit} {status : Status} {subject : Nat} {index : Option Nat}
    (h : s.admitsEdit code f) (refuses : edit s = .refuse status subject index) :
    s.request code f (change code f.tag edit) =
      { s.withReply code f status .none with
        sl := { (s.withReply code f status .none).sl with
          latch := if status.latches then some ⟨status, code, f.tag, subject, index⟩ else none } } := by
  rw [State.request_served h.1, change, if_neg (by simp [h.2]), refuses]
  dsimp only
  rw [State.latchRefusal]
  cases status.latches with
  | true => rfl
  | false => simp only [Reply.makeReady, State.withReply, h.2, Bool.false_eq_true, if_false, InWork.code,
    InWork.tag, collect]

/-! ### Owners asked in turn (R171, R178, R179) -/

section InTurn

variable {start g : Gathered} {lost : Bool}

/-- A frame whose owners are asked in turn is admitted as any other. -/
theorem State.requestInTurn_admitted (h : f.phase ≠ .service) :
    s.requestInTurn f serve start = s.request start.code f serve := by
  unfold State.requestInTurn
  split
  · next e => exact absurd e h
  · rfl
  · rfl

variable (service : f.phase = .service) (held : s.held = false)

include service held

/-- The first service judges the frame in work, and asks the first owner. -/
theorem State.requestInTurn_first
    (inWork : s.sl.transaction = .inWork (.request start.code (collect f.toFrame)) lost)
    (ok : frameOk start.code (collect f.toFrame) = true) :
    s.requestInTurn f serve start = s.askNext (collect f.toFrame) lost start := by
  simp [State.requestInTurn, service, State.whenRunning, held, State.serveInTurn, inWork, ok]

/-- A malformed frame in work is answered BAD_REQUEST at its first service. -/
theorem State.requestInTurn_malformed
    (inWork : s.sl.transaction = .inWork (.request start.code (collect f.toFrame)) lost)
    (bad : frameOk start.code (collect f.toFrame) = false) :
    s.requestInTurn f serve start =
      (badRequest s).makeReady (.request start.code (collect f.toFrame)) lost s.sl.out := by
  simp [State.requestInTurn, service, State.whenRunning, held, State.serveInTurn, inWork, bad]

/-- Each later service asks the next owner. -/
theorem State.requestInTurn_next
    (inWork : s.sl.transaction = .inWork (.gathering (collect f.toFrame) g) lost) (code : g.code = start.code) :
    s.requestInTurn f serve start = s.askNext (collect f.toFrame) lost g := by
  simp [State.requestInTurn, service, State.whenRunning, held, State.serveInTurn, inWork, code]

/-- The service of a frame that is not in work changes nothing. -/
theorem State.requestInTurn_other
    (request : ∀ lost, s.sl.transaction ≠ .inWork (.request start.code (collect f.toFrame)) lost)
    (gathering : ∀ g lost, g.code = start.code → s.sl.transaction ≠ .inWork (.gathering (collect f.toFrame) g) lost) :
    s.requestInTurn f serve start = s := by
  simp only [State.requestInTurn, service, State.whenRunning, held, Bool.false_eq_true, if_false, State.serveInTurn]
  split
  · next e => exact if_neg fun h => request _ (by rw [e, h.1, h.2])
  · next e => exact if_neg fun h => gathering _ _ h.1 (by rw [e, h.2])
  all_goals rfl

end InTurn

/-! ### What a command of a request answers -/

/-- The service of a frame at its owner (Table 9-2). -/
def ownerOf (code : ReqCode) (f : Frame) : State → Reply :=
  match code with
  | .setTime => serveSetTime f.body
  | .getTime => serveGetTime
  | .getTimeStatus => serveGetTimeStatus
  | .readLink => serveReadLink f.body
  | .unlockCapture => serveUnlockCapture f.body
  | .defineObject => change .defineObject f.tag (editDefineObject f.body)
  | .amendObject => change .amendObject f.tag (editAmendObject f.body)
  | .retireObject => change .retireObject f.tag (editRetireObject f.body)
  | .readObject => serveReadObject f.body
  | .findObjects => serveFindObjects f.body
  | .loadPath => change .loadPath f.tag (editLoadPath f.body)
  | .amendTimingPoint => change .amendTimingPoint f.tag (editAmendTimingPoint f.body)
  | .shiftPath => change .shiftPath f.tag (editShiftPath f.body)
  | .copyPath => change .copyPath f.tag (editCopyPath f.body)
  | .repeatPath => change .repeatPath f.tag (editRepeatPath f.tag f.body)
  | .armPath => change .armPath f.tag (editArmPath f.body)
  | .cancelPath => change .cancelPath f.tag (editCancelPath f.body)
  | .retirePath => change .retirePath f.tag (editRetirePath f.body)
  | .readPath => serveReadPath f.body
  | .findPaths => serveFindPaths f.body
  | .readBerthQueue => serveReadBerthQueue f.body
  | .digestPlan => serveDigestPlan f.tag
  | .dialSet => serveDialSet f.body
  | .readLine => serveReadLine f.body
  | .nextCondition => serveNextCondition f.body
  | .ackCondition => serveAckCondition f.body
  | .readConditions => serveReadConditions f.body
  | .setWatch => serveSetWatch f.body
  | .readWatch => serveReadWatch
  | .getStatus => serveGetStatus
  | .clearEditFault => serveClearEditFault
  | .setSetting => serveSetSetting f.body
  | .readSettings => serveReadSettings
  | .saveSettings => serveSaveSettings f.tag

/-- Every command of a request is its frame, at its phase, with the service of its owner; the service of READ WATCH and of
GET STATUS apart, which asks one owner. -/
theorem exec_commandOf (code : ReqCode) (f : ReqFrame) (s : State) (h : asksInTurn code = false ∨ f.phase ≠ .service) :
    exec (commandOf code f) s = .next (s.request code f (ownerOf code f.toFrame)).settle := by
  cases code
  case readWatch =>
    exact congrArg (fun t => Host.Outcome.next (State.settle t))
      (State.requestInTurn_admitted (start := .watch [] 0) (h.resolve_left (by decide)))
  case getStatus =>
    exact congrArg (fun t => Host.Outcome.next (State.settle t))
      (State.requestInTurn_admitted (start := .status s.statusView .serviceLink) (h.resolve_left (by decide)))
  all_goals rfl

/-- A request served with new records: what it answers, from the answer of its owner. -/
theorem State.exec_served {t : State} {status : Status} {body : Body} (h : s.admits code f)
    (meaning : exec (commandOf code f) s = (s.request code f serve).answer)
    (answers : serve s = ⟨t, status, body⟩) :
    exec (commandOf code f) s = .next (t.withReply code f status body).settle := by
  rw [meaning, State.request_served h, answers, State.makeReady_eq]
  rfl

/-- A request answered with nothing but its reply. -/
theorem State.exec_replies {status : Status} {body : Body} (h : s.admits code f)
    (meaning : exec (commandOf code f) s = (s.request code f serve).answer)
    (answers : serve s = .same s status body) : s.repliesOnly code f status body :=
  State.exec_served h meaning answers

/-- A change request with the latch set (R175). -/
theorem State.exec_blocked {edit : State → Edit} (h : s.admits code f) (set : s.sl.latch.isSome = true)
    (meaning : exec (commandOf code f) s = (s.request code f (change code f.tag edit)).answer) :
    s.repliesOnly code f .editBlocked .none :=
  State.exec_replies h meaning (by rw [change, if_pos (by simp [set]), Reply.same])

/-- A change request accepted: the records of `t` with the reply pending. -/
theorem State.exec_accepted {edit : State → Edit} {t : State} {status : Status} {body : Body}
    (h : s.admitsEdit code f)
    (meaning : exec (commandOf code f) s = (s.request code f (change code f.tag edit)).answer)
    (accepts : edit s = .accept t status body) :
    exec (commandOf code f) s = .next (t.withReply code f status body).settle := by
  rw [meaning, State.request_accepted h accepts]
  rfl

/-- A change request refused by a code that latches. -/
theorem State.exec_refused {edit : State → Edit} {status : Status} {subject : Nat} {index : Option Nat}
    (h : s.admitsEdit code f)
    (meaning : exec (commandOf code f) s = (s.request code f (change code f.tag edit)).answer)
    (refuses : edit s = .refuse status subject index) (latches : status.latches = true) :
    s.refusesEdit code f status subject index := by
  unfold State.refusesEdit
  rw [meaning, State.request_refused h refuses, latches]
  rfl

/-- A change request answered by a code that does not latch. -/
theorem State.exec_declined {edit : State → Edit} {status : Status} {subject : Nat} {index : Option Nat}
    (h : s.admitsEdit code f)
    (meaning : exec (commandOf code f) s = (s.request code f (change code f.tag edit)).answer)
    (refuses : edit s = .refuse status subject index) (latches : status.latches = false) :
    s.repliesOnly code f status .none := by
  unfold State.repliesOnly
  rw [meaning, State.request_refused h refuses, latches]
  simp [State.withReply, h.2, State.answer]

end Sys2Proof.Machine
end

