-- ==== Sys2Proof/Laws/Paths.lean ====
section
/-! SUPPORT. What the path requests read from their bodies, what arming a path changes, and the checks of a plan as
plain statements. -/

namespace Sys2Proof.Machine

/-! ### Reading what was written (11.3) -/

theorem field_drop (body : List Byte) (k offset width : Nat) :
    field (body.drop k) offset width = field body (k + offset) width := by simp [field, List.drop_drop]

theorem byteAt_drop (body : List Byte) (k offset : Nat) : byteAt (body.drop k) offset = byteAt body (k + offset) := by
  simp [byteAt, List.getD_eq_getElem?_getD]

theorem toBe_two (n : Nat) : toBe 2 n = [BitVec.ofNat 8 (n / 256), BitVec.ofNat 8 n] := rfl

theorem two_bytes {n : Nat} (h : n ≤ 65535) : n / 256 % 256 * 256 + n % 256 = n := by omega

/-- An entry read where it lies in a body. -/
theorem planOf_drop (body : List Byte) (k : Nat) : planOf (body.drop k) 0 = planOf body k := by
  simp only [planOf, field_drop, byteAt_drop, Nat.zero_add, Nat.add_zero]

set_option maxRecDepth 2000 in
/-- A timing-point entry written within its ranges reads back as it was (Table 11-5). -/
theorem planOf_bytes {p : Plan} (rest : List Byte) (berth : 1 ≤ p.berth ∧ p.berth ≤ 4095) (planned : p.planned ≤ 3599)
    (early : p.early ≤ 1800) (late : p.late ≤ 1800) (allowance : p.allowance ≤ 1800)
    (route : ∀ r, p.route = some r → 1 ≤ r.point ∧ r.point ≤ 4095) : planOf (p.bytes ++ rest) 0 = some p := by
  obtain ⟨b, k, pl, e, l, a, r⟩ := p
  dsimp only at berth planned early late allowance route
  have kind : PointKind.ofCode (k.code % 256) = some k := by cases k <;> rfl
  cases r with
  | none =>
    simp only [planOf, Plan.bytes, toBe_two, one, field, byteAt, beNat, List.cons_append, List.nil_append,
      List.drop_succ_cons, List.drop_zero, List.take_succ_cons, List.take_zero, List.foldl_cons, List.foldl_nil,
      BitVec.toNat_ofNat, List.getD_cons_succ, List.getD_cons_zero, Nat.zero_add, Nat.zero_mul, Nat.reducePow]
    rw [two_bytes (n := b) (by omega), two_bytes (n := pl) (by omega), two_bytes (n := e) (by omega),
      two_bytes (n := l) (by omega), two_bytes (n := a) (by omega),
      if_pos ⟨berth.1, berth.2, planned, early, late, allowance⟩, kind]
    rfl
  | some r =>
    obtain ⟨pt, ex⟩ := r
    obtain ⟨r1, r2⟩ := route _ rfl
    dsimp only at r1 r2
    have expected : Pos.ofCode (ex.code % 256) = some ex := by cases ex <;> rfl
    simp only [planOf, Plan.bytes, toBe_two, one, field, byteAt, beNat, List.cons_append, List.nil_append,
      List.drop_succ_cons, List.drop_zero, List.take_succ_cons, List.take_zero, List.foldl_cons, List.foldl_nil,
      BitVec.toNat_ofNat, List.getD_cons_succ, List.getD_cons_zero, Nat.zero_add, Nat.zero_mul, Nat.reducePow]
    rw [two_bytes (n := b) (by omega), two_bytes (n := pl) (by omega), two_bytes (n := e) (by omega),
      two_bytes (n := l) (by omega), two_bytes (n := a) (by omega), two_bytes (n := pt) (by omega),
      if_pos ⟨berth.1, berth.2, planned, early, late, allowance⟩, kind, routeOf, expected, if_neg (by omega),
      if_neg (by omega)]
    rfl

theorem Plan.length_bytes (p : Plan) : p.bytes.length = 14 := by
  obtain ⟨b, k, pl, e, l, a, r⟩ := p
  cases r <;> rfl

/-- The fields of a LOAD PATH body as they were written (Table 11-3). -/
theorem loadEntries_bytes (head : List Byte) (plans : List Plan) (long : head.length = 8) (short : plans.length ≤ 64)
    (ok : ∀ p ∈ plans, ∀ rest, planOf (p.bytes ++ rest) 0 = some p) :
    loadEntries (head ++ [BitVec.ofNat 8 plans.length] ++ plans.flatMap Plan.bytes) = plans.map some := by
  have count : (byteAt (head ++ [BitVec.ofNat 8 plans.length] ++ plans.flatMap Plan.bytes) 8).toNat = plans.length := by
    simp [byteAt, List.getD_eq_getElem?_getD, long, BitVec.toNat_ofNat]
    omega
  have each : ∀ (plans : List Plan), (∀ p ∈ plans, ∀ rest, planOf (p.bytes ++ rest) 0 = some p) →
      ∀ i p, plans[i]? = some p → planOf ((plans.flatMap Plan.bytes).drop (14 * i)) 0 = some p := by
    intro plans
    induction plans with
    | nil => intro _ i p h; simp at h
    | cons x t ih =>
      intro ok i p h
      cases i with
      | zero =>
        obtain rfl : x = p := by simpa using h
        simpa using ok x (by simp) _
      | succ i =>
        have := ih (fun p hp => ok p (by simp [hp])) i p (by simpa using h)
        have skip : (List.flatMap Plan.bytes (x :: t)).drop (14 * (i + 1)) = (t.flatMap Plan.bytes).drop (14 * i) := by
          rw [show 14 * (i + 1) = 14 + 14 * i by omega, ← List.drop_drop, List.flatMap_cons]
          congr 1
          exact List.drop_left' (Plan.length_bytes x)
        rw [skip, this]
  refine List.ext_getElem? fun i => ?_
  rw [loadEntries, count, List.getElem?_map, List.getElem?_map]
  by_cases h : i < plans.length
  · rw [List.getElem?_eq_getElem h, List.getElem?_eq_getElem (by simpa using h), List.getElem_range, Option.map_some,
      Option.map_some, ← planOf_drop]
    rw [← each plans ok i plans[i] (List.getElem?_eq_getElem h), ← List.drop_drop]
    congr 3
    exact List.drop_left' (by simp [long])
  · rw [List.getElem?_eq_none (by rw [List.length_range]; omega), List.getElem?_eq_none (by omega)]
    rfl


/-! ### Arming (R113, R115, R116) -/

@[simp] theorem State.onObject_tc (s : State) (n : Nat) (g : ObjectRec → ObjectRec) : (s.onObject n g).tc = s.tc := by
  unfold State.onObject; cases s.object n <;> rfl

@[simp] theorem State.armNext_tc (s : State) (n : Nat) (p : PathRec) : (s.armNext n p).tc = s.tc := by
  have each : ∀ (t : State) k, (t.armPoint n p k).tc = t.tc := fun t k => by
    unfold State.armPoint
    cases p.point k
    · rfl
    · exact State.onObject_tc _ _ _
  rw [State.armNext, each, each]

/-- Arming stores the path ARMED, with its first deadline (R116). -/
theorem State.activate_tc (s : State) (n : Nat) (p : PathRec) : (s.activate n p).tc =
    { s.tc with paths := s.tc.paths.set n { p with state := .armed, deadline := p.overdueDeadline } } :=
  State.armNext_tc _ _ _

theorem State.armIfDue_of {s : State} {n : Nat} {p : PathRec} (stored : s.path n = some p) :
    s.armIfDue n = if p.state = .loaded ∧ s.timeDue p.activation = true then s.activate n p else s := by
  simp only [State.armIfDue, stored]

/-- No activation is due before its time, nor while service is SUSPENDED (R112, R113). -/
theorem State.not_timeDue {s : State} {time : Nat} (h : s.tc.service = .suspended ∨ s.stationMs < time) :
    s.timeDue time = false := by
  rcases h with h | h
  · simp [State.timeDue, State.serving, h]
  · have : ¬ ((time : Int) ≤ (s.stationMs : Int)) := by omega
    simp [State.timeDue, this]

theorem State.timeDue_iff {s : State} {time : Int} :
    s.timeDue time = true ↔ s.tc.service = .serving ∧ time ≤ (s.stationMs : Int) := by
  simp [State.timeDue, State.serving]

/-! ### PATH_OVERDUE at a new deadline (R120, R131, R154) -/

theorem State.deadlineDue_iff {s : State} {p : PathRec} : s.deadlineDue p = true ↔
    ∃ d, p.deadline = some d ∧ s.tc.service = .serving ∧ d.time ≤ (s.stationMs : Int) := by
  cases h : p.deadline <;> simp [State.deadlineDue, h, State.timeDue_iff]

/-- Reports against a path leave what a deadline is compared with. -/
@[simp] theorem State.deadlineDue_setPath_report (s : State) (n : Nat) (p q : PathRec) (w : Watched) :
    ((s.setPath n q).report w).deadlineDue p = s.deadlineDue p := rfl

/-- Where the cause was not active, or the new deadline is not due, the cause only ends (R113). -/
theorem State.renewOverdue_ends {s : State} {n : Nat} {p : PathRec} (stored : s.path n = some p)
    (h : ¬ (p.conds.active .pathOverdue = true ∧ s.deadlineDue p = true)) :
    s.renewOverdue n = s.endCause (.path n) .pathOverdue := by
  cases active : p.conds.active .pathOverdue with
  | false =>
    simp [State.renewOverdue, State.endCause_path stored, State.causeActive, State.condsOf_path s stored, active, stored]
  | true =>
    have quiet : ∀ cs, s.deadlineDue { p with conds := cs } = false := fun _ =>
      Bool.eq_false_iff.mpr fun due => h ⟨active, due⟩
    simp [State.renewOverdue, State.endCause_path stored, active, quiet]

/-- An active cause at a due deadline ends and begins again, and the deadline becomes the LOST stage (R118, R154). -/
theorem State.renewOverdue_again {s : State} {n : Nat} {p : PathRec} {t : Plan} (stored : s.path n = some p)
    (active : p.conds.active .pathOverdue = true) (due : s.deadlineDue p = true) (next : p.due = some t) :
    s.renewOverdue n =
      ((s.setPath n { p with deadline := some (s.lostDeadline (p.projectedAt t)) }).endCause (.path n)
        .pathOverdue).beginCause (.path n) .pathOverdue (.pathOverdue p.passed (p.projectedAt t)) := by
  have due' : ∀ cs, s.deadlineDue { p with conds := cs } = true := fun _ => due
  have next' : ∀ cs, ({ p with conds := cs } : PathRec).due = some t := fun _ => next
  simp only [State.renewOverdue, State.endCause_path stored, State.endCause_path (State.path_setPath_self ..),
    State.causeActive, State.condsOf_path s stored, active, if_true, State.path_report, State.path_setPath_self,
    State.deadlineDue_setPath_report, due', and_self, State.overdue, next', State.setPath_report, State.setPath_setPath]
  rfl

/-! ### Checks of a plan (R89) -/

theorem firstBad_none {α : Type} {ok : α → Bool} {l : List α} : firstBad ok l = none ↔ ∀ x ∈ l, ok x = true := by
  induction l with
  | nil => simp [firstBad]
  | cons x t ih => by_cases h : ok x = true <;> simp [firstBad, h, ih]

/-- The first element that fails a test, all those before it passing. -/
theorem firstBad_eq {α : Type} {ok : α → Bool} {l : List α} {i : Nat} {x : α} (at_i : l[i]? = some x)
    (bad : ok x = false) (before : ∀ y ∈ l.take i, ok y = true) : firstBad ok l = some i := by
  induction l generalizing i with
  | nil => simp at at_i
  | cons a t ih =>
    cases i with
    | zero =>
      obtain rfl : a = x := by simpa using at_i
      simp [firstBad, bad]
    | succ i =>
      have head : ok a = true := before a (by simp)
      have := ih (by simpa using at_i) fun y hy => before y (by simp [hy])
      simp [firstBad, head, this]

/-- No timing point is planned earlier than the one before it. -/
theorem firstDecrease_none {l : List Plan} :
    firstDecrease l = none ↔ l.Pairwise fun a b => a.planned ≤ b.planned := by
  have chain : ∀ l : List Plan, firstDecrease l = none ↔ l.IsChain fun a b => a.planned ≤ b.planned := by
    intro l
    induction l with
    | nil => simp [firstDecrease]
    | cons a t ih =>
      cases t with
      | nil => simp [firstDecrease]
      | cons b t =>
        rw [List.isChain_cons_cons, ← ih]
        by_cases h : b.planned < a.planned
        · simp [firstDecrease, h]
        · simp [firstDecrease, h]
          intro; omega
  rw [chain]
  have : Trans (fun a b : Plan => a.planned ≤ b.planned) (fun a b : Plan => a.planned ≤ b.planned)
    (fun a b : Plan => a.planned ≤ b.planned) := ⟨fun h k => Nat.le_trans h k⟩
  exact List.isChain_iff_pairwise

/-- The later point of the first pair of timing points that is not in order. -/
theorem firstDecrease_eq {l : List Plan} {i : Nat} {a b : Plan} (ha : l[i]? = some a) (hb : l[i + 1]? = some b)
    (less : b.planned < a.planned)
    (before : ∀ j x y, j < i → l[j]? = some x → l[j + 1]? = some y → x.planned ≤ y.planned) :
    firstDecrease l = some (i + 1) := by
  induction l generalizing i with
  | nil => simp at ha
  | cons x t ih =>
    cases t with
    | nil => simp at hb
    | cons y t =>
      cases i with
      | zero =>
        simp only [List.getElem?_cons_zero, List.getElem?_cons_succ, Option.some.injEq, zero_add] at ha hb
        subst ha; subst hb
        simp [firstDecrease, less]
      | succ i =>
        have h0 := before 0 x y (by omega) rfl rfl
        rw [firstDecrease, if_neg (by omega), ih ha hb fun j p q lt hp hq => before (j + 1) p q (by omega) hp hq]
        rfl

theorem State.namesStored_iff {s : State} {p : Plan} : s.namesStored p = true ↔
    (∃ r b, s.object p.berth = some r ∧ r.kind = .berth b) ∧
      ∀ c, p.route = some c → ∃ r q, s.object c.point = some r ∧ r.kind = .point q := by
  have berth : ∀ n, s.isBerth n = true ↔ ∃ r b, s.object n = some r ∧ r.kind = .berth b := by
    intro n
    cases h : s.object n with
    | none => simp [State.isBerth, h]
    | some r => cases hk : r.kind <;> simp [State.isBerth, h, hk]
  have point : ∀ n, s.isPoint n = true ↔ ∃ r q, s.object n = some r ∧ r.kind = .point q := by
    intro n
    cases h : s.object n with
    | none => simp [State.isPoint, h]
    | some r => cases hk : r.kind <;> simp [State.isPoint, h, hk]
  rw [State.namesStored, Bool.and_eq_true, berth]
  refine and_congr Iff.rfl ?_
  cases p.route with
  | none => simp
  | some c => simp [point]

theorem State.taken_iff {s : State} {n : Nat} : s.taken n = true ↔ (s.path n).isSome = true ∨
    ∃ op, s.tc.repeatOp = some op ∧ op.first + (op.next - 1) ≤ n ∧ n < op.first + op.count := by
  rw [State.taken, Bool.or_eq_true, State.reserved]
  cases s.tc.repeatOp <;> simp

theorem State.storeFull_iff {s : State} {k : Nat} : s.storeFull k = true ↔
    1024 < s.tc.paths.length + (match s.tc.repeatOp with | some op => op.count + 1 - op.next | none => 0) + k := by
  rw [State.storeFull, decide_eq_true_eq, State.reservedPlaces]
  exact Iff.rfl

/-- A timing-point entry is read exactly when it lies within its ranges. -/
theorem planOf_isSome {body : List Byte} {offset : Nat} :
    (planOf body offset).isSome = true ↔ entryInRange body offset := by
  have one : ∀ k, field body (offset + k) 1 = (byteAt body (offset + k)).toNat := by
    intro k
    simp only [field, byteAt, List.getD_eq_getElem?_getD]
    cases h : body[offset + k]? with
    | none => rw [List.drop_eq_nil_of_le (by simpa using h)]; rfl
    | some x =>
      obtain ⟨hl, rfl⟩ := List.getElem?_eq_some_iff.mp h
      rw [List.drop_eq_getElem_cons hl]
      show 0 * 256 + _ = _
      simp
  have kinds : ∀ n, (PointKind.ofCode n).isSome = true ↔ 1 ≤ n ∧ n ≤ 3 := by
    intro n; rcases n with _ | _ | _ | _ | n <;> simp [PointKind.ofCode]
  have routes : ∀ p x, (routeOf p x).isSome = true ↔ (p = 0 ∧ x = 0) ∨ (1 ≤ p ∧ p ≤ 4095 ∧ 1 ≤ x ∧ x ≤ 2) := by
    intro p x
    unfold routeOf
    split
    · split <;> simp <;> omega
    · split
      · simp; omega
      · rcases x with _ | _ | _ | x <;> simp [Pos.ofCode] <;> omega
  unfold planOf entryInRange
  simp only [one, Nat.add_zero]
  split
  · rename_i h
    have k := kinds (byteAt body (offset + 2)).toNat
    have r := routes (field body (offset + 11) 2) (byteAt body (offset + 13)).toNat
    revert k r
    generalize PointKind.ofCode _ = kk
    generalize routeOf _ _ = rr
    intro k r
    cases kk <;> cases rr <;> simp at k r ⊢ <;> omega
  · simp; omega

/-- The live states (5.2). -/
theorem PathState.live_iff {st : PathState} : st.live = true ↔ st = .loaded ∨ st = .armed ∨ st = .running := by
  cases st <;> simp [PathState.live]

theorem shiftOk_iff {d : Int} {p : Plan} :
    shiftOk d p = true ↔ 0 ≤ (p.planned : Int) + d ∧ (p.planned : Int) + d ≤ 3599 := by
  rw [shiftOk, Bool.and_eq_true, decide_eq_true_eq, decide_eq_true_eq]
  exact Iff.rfl

/-- R91 step 9. -/
theorem PathRec.keepsOrder_iff {p : PathRec} {index : Nat} {plan : Plan} : p.keepsOrder index plan = true ↔
    (∀ i x, index = i + 1 → p.points[i]? = some x → x.plan.planned ≤ plan.planned) ∧
      ∀ x, p.points[index + 1]? = some x → plan.planned ≤ x.plan.planned := by
  simp only [PathRec.keepsOrder, Bool.and_eq_true, PathRec.point]
  refine and_congr ?_ ?_
  · cases index with
    | zero => simp
    | succ i =>
      have : ∀ P : Nat → TimingPoint → Prop, (∀ j x, i + 1 = j + 1 → P j x) ↔ ∀ x, P i x :=
        fun P => ⟨fun h x => h i x rfl, fun h j x e => by
          obtain rfl : i = j := by omega
          exact h x⟩
      rw [this]
      cases hx : p.points[i]? <;> simp [hx]
  · cases p.points[index + 1]? <;> simp

/-- R92 step 9. -/
theorem PathRec.shiftKeepsOrder_iff {p : PathRec} {delta : Int} : p.shiftKeepsOrder delta = true ↔
    ∀ i x y, p.state = .running → p.passed = i + 1 → p.points[i]? = some x → p.points[i + 1]? = some y →
      (x.plan.planned : Int) ≤ (y.plan.planned : Int) + delta := by
  unfold PathRec.shiftKeepsOrder
  split
  · rename_i last hs hq
    have : ∀ P : Nat → TimingPoint → TimingPoint → Prop,
        (∀ i x y, p.state = .running → p.passed = i + 1 → P i x y) ↔ ∀ x y, P last x y :=
      fun P => ⟨fun h x y => h last x y hs hq, fun h i x y _ e => by
        obtain rfl : last = i := by omega
        exact h x y⟩
    rw [this]
    simp only [PathRec.point]
    cases hx : p.points[last]? <;> cases hy : p.points[last + 1]? <;> simp [shifted]
    exact decide_eq_true_iff
  · rename_i hno
    simp only [true_iff]
    intro i x y hs hq
    exact absurd hq (fun hq => hno i hs hq)

end Sys2Proof.Machine
end

