-- ==== Sys2Proof/Laws/Idle.lean ====
section
/-! SUPPORT. What a microsecond keeps, and when nothing of the part is due: one lemma for each source of the events that
`State.idle` takes. -/

namespace Sys2Proof.Machine

variable {s : State}

theorem whenDue_false {due : Bool} (c : Instr) (h : due = false) : whenDue due c = [] := by subst h; rfl

/-! ### A microsecond (R1 to R3, R14) -/

/-- Slewing moves the residual toward 0 and never past it. -/
theorem slewBy_residual (r : Int) (k : Nat) : (slewBy r k).1.natAbs ≤ r.natAbs := by
  unfold slewBy
  split <;> (dsimp only; omega)

/-- A microsecond keeps the Time Base within its ranges. -/
theorem TimeBase.inRange_tick {t : TimeBase} (h : t.inRange) : t.tick.inRange := by
  obtain ⟨trimLow, trimHigh, low, high, good, outliers, station, _, _, _, held⟩ := h
  unfold TimeBase.tick
  split
  · exact ⟨trimLow, trimHigh, low, high, good, outliers, station, ‹_›, ‹_›, Nat.mod_lt _ (by decide), held⟩
  · have moved := slewBy_residual t.residual ((t.slewPhase + (trimmedAdvance t.trim t.fraction).1) / 1000)
    refine ⟨trimLow, trimHigh, ?_, ?_, good, outliers, Nat.min_le_left .., Nat.mod_lt _ (by decide),
      Nat.mod_lt _ (by decide), Nat.mod_lt _ (by decide), held⟩ <;> (dsimp only; omega)

/-! ### Timed events -/

theorem TimeBase.not_rangeReached
    (h : s.tb.rangeHold = true ∨ s.tb.stationUs < 65536 * 86400000000 - 1) : s.tb.rangeReached = false := by
  rw [← Bool.not_eq_true]
  simp only [TimeBase.rangeReached, Bool.and_eq_true, decide_eq_true_iff, Bool.not_eq_true', not_and]
  intro reached
  rcases h with h | h
  · simp [h]
  · simp only [Config.lastUs, Config.usPerDay] at reached
    omega

theorem State.dueAtTimeBase_nil
    (gap : ∀ start, s.tb.gapStart = some start → (s.tb.discipline = .acquire ∨ s.tb.discipline = .locked) →
      s.tb.stationUs < start + 3000000)
    (holdover : ∀ start, s.tb.discipline = .holdover → s.tb.holdoverStart = some start →
      ((s.tb.elapsed - start : Nat) : Int) < s.settings.holdoverLimit * 60000)
    (message : ∀ rx, s.tb.refRx = some rx → s.tb.elapsed ≤ rx.mark + 20) : s.dueAtTimeBase = [] := by
  rw [State.dueAtTimeBase, whenDue_false, whenDue_false, whenDue_false]
  · rfl
  · unfold TimeBase.refTimedOut
    split
    · rename_i rx h
      exact decide_eq_false (by have := message rx h; simp only [Config.interByteLimit]; omega)
    · rfl
  · rw [← Bool.not_eq_true]
    simp only [State.holdoverReached, Bool.and_eq_true, decide_eq_true_iff, Option.isSome_iff_exists]
    rintro ⟨⟨a, start, b⟩, c⟩
    have := holdover start a b
    simp only [TimeBase.holdover, b] at c
    omega
  · unfold TimeBase.gapExpired
    split
    · rename_i start h
      rw [← Bool.not_eq_true]
      simp only [Bool.and_eq_true, Bool.or_eq_true, decide_eq_true_iff, Config.referenceGap]
      rintro ⟨a, b⟩
      have reached : start + 3000000 ≤ s.tb.stationUs := of_decide_eq_true a
      have := gap start h b
      omega
    · rfl

theorem State.dueAtLink_nil {i : Fin 4} (h : s.linkQuiet i) : s.dueAtLink i = [] := by
  obtain ⟨framing, silence, _⟩ := h
  rw [State.dueAtLink, whenDue_false, whenDue_false]
  · rfl
  · unfold State.silenceDue
    split
    · rename_i start up running
      exact decide_eq_false (by have := silence _ up running; simp only [State.elapsed]; omega)
    · rfl
  · cases enabled : s.settings.linkEnable.get i
    · rfl
    · simp only [Bool.true_and, State.interByteDue]
      cases receiving : (s.link i).framing
      · rfl
      · exact decide_eq_false (by
          have := framing _ _ enabled receiving
          simp only [State.elapsed, Config.interByteLimit]
          omega)

theorem State.headEvent_nil {i : Fin 4} (h : s.linkQuiet i) : s.headEvent i = [] := by
  simp only [State.headEvent, h.2.2]

theorem ObjectRec.dueLimit_nil {r : ObjectRec} {n elapsed : Nat}
    (throw : ∀ p m, r.kind = .point p → p.movement = some m → m.running = true → elapsed < m.startMark + p.throwLimit)
    (clear : ∀ g c, r.kind = .signal g → g.clearing = some c → c.running = true →
      elapsed < c.requestMark + g.clearLimit) : r.dueLimit n elapsed = [] := by
  cases kind : r.kind <;> simp only [ObjectRec.dueLimit, kind]
  · refine whenDue_false _ ?_
    unfold PointRec.throwDue
    split
    · rename_i m moving
      cases running : m.running
      · rfl
      · exact decide_eq_false (by have := throw _ m kind moving running; omega)
    · rfl
  · refine whenDue_false _ ?_
    unfold SignalRec.clearDue
    split
    · rename_i c clearing
      cases running : c.running
      · rfl
      · exact decide_eq_false (by have := clear _ c kind clearing running; omega)
    · rfl

theorem State.dueAtLine_nil {i : Fin 4} (h : s.lineQuiet i) : s.dueAtLine i = [] := by
  obtain ⟨impulse, gap, fault, _⟩ := h
  cases at_i : (s.line i).state <;> simp only [State.dueAtLine, at_i]
  · rename_i c
    have early := impulse c at_i
    cases sensed : c.sensed <;> simp only [sensed, if_true, Bool.false_eq_true, if_false] at early ⊢ <;>
      exact whenDue_false _ (decide_eq_false (by
        simp only [Impulse.endMark, Impulse.senseMark, State.elapsed]
        omega))
  · rename_i completion
    refine whenDue_false _ ?_
    simp only [State.gapDue, at_i]
    exact decide_eq_false (by have := gap completion at_i; simp only [State.elapsed]; omega)
  · rename_i mark
    exact whenDue_false _ (decide_eq_false (by have := fault mark at_i; simp only [State.elapsed]; omega))

theorem State.not_targetChanged {i : Fin 4} (h : s.lineQuiet i) : s.targetChanged i = false := by
  rw [← Bool.not_eq_true]
  simp only [State.targetChanged, Bool.and_eq_true, decide_eq_true_iff, not_and, not_not]
  intro resting
  match dial : (s.line i).dial with
  | .at position last =>
    rw [State.decision_at dial]
    refine h.2.2.2 position last dial ?_
    cases at_i : (s.line i).state <;> simp_all [LineState.resting]
  | .unset _ => simp only [State.decision, dial]
  | .unknown => simp only [State.decision, dial]

/-! ### The two lists of the Timetable Comparator (R110, R113) -/

theorem mem_insertEntry {e x : ListEntry} {l : List ListEntry} (h : x ∈ insertEntry e l) : x = e ∨ x ∈ l := by
  induction l with
  | nil => simpa [insertEntry] using h
  | cons a t ih =>
    simp only [insertEntry] at h
    split at h
    · simpa using h
    · rcases List.mem_cons.mp h with h | h
      · simp [h]
      · rcases ih h with h | h <;> simp [h]

theorem mem_inOrder {x : ListEntry} {l : List ListEntry} (h : x ∈ inOrder l) : x ∈ l := by
  induction l with
  | nil => simp [inOrder] at h
  | cons a t ih =>
    rcases mem_insertEntry h with h | h
    · simp [h]
    · exact List.mem_cons_of_mem _ (ih h)

theorem State.timeDue_early {time : Int}
    (h : s.tc.service = .serving → ((s.tb.stationUs / 1000 : Nat) : Int) < time) : s.timeDue time = false := by
  rw [← Bool.not_eq_true, State.timeDue_iff]
  rintro ⟨serving, due⟩
  have := h serving
  simp only [State.stationMs] at due
  omega

theorem State.dueActivation_none
    (h : s.tc.service = .serving → ∀ e ∈ s.tc.paths,
      e.2.state = .loaded → s.tb.stationUs / 1000 < e.2.activation) : s.dueActivation = none := by
  unfold State.dueActivation
  split
  · rename_i e t head
    have listed : e ∈ s.activationList := by rw [head]; simp
    obtain ⟨x, stored, eq⟩ := List.mem_filterMap.mp (mem_inOrder listed)
    split at eq
    · rename_i loaded
      obtain rfl := Option.some.inj eq
      rw [if_neg]
      rw [State.timeDue_early fun serving => Int.ofNat_lt.mpr (h serving x stored loaded)]
      decide
    · simp at eq
  · rfl

theorem State.dueDeadline_none (stage : Stage)
    (h : s.tc.service = .serving → ∀ e ∈ s.tc.paths,
      ∀ d, e.2.deadline = some d → ((s.tb.stationUs / 1000 : Nat) : Int) < d.time) : s.dueDeadline stage = none := by
  unfold State.dueDeadline
  split
  · rename_i e t head
    have listed : e ∈ s.deadlineList := by rw [head]; simp
    obtain ⟨x, stored, eq⟩ := List.mem_filterMap.mp (mem_inOrder listed)
    obtain ⟨d, deadline, rfl⟩ := Option.map_eq_some_iff.mp eq
    have early : s.timeDue d.time = false := State.timeDue_early fun serving => h serving x stored d deadline
    simp only [early, Bool.false_eq_true, false_and, if_false]
    split <;> rfl
  · rfl

end Sys2Proof.Machine
end

