-- ==== Sys2Proof/Laws/Objects.lean ====
section
/-! SUPPORT. What serving an arrival entry can change: the records it names, the watch slots' changed marks, and the
berth events handed; and what each operation leaves in the record. -/

namespace Sys2Proof.Machine

variable {s t u : State} {n : Nat} {r : ObjectRec}

/-- Reporting a record twice is reporting it once. -/
theorem State.reported_reported (v : Vec WatchSlot 16) (w : Watched) :
    (v.map (WatchSlot.reported w)).map (WatchSlot.reported w) = v.map (WatchSlot.reported w) := by
  refine Vec.ext_get fun k => ?_
  simp only [Vec.get_map, WatchSlot.reported]
  split <;> simp_all

/-- The watch slots after an event at a record that reports it, or does not. -/
def slotsAfter (v : Vec WatchSlot 16) (n : Nat) (reports : Bool) : Vec WatchSlot 16 :=
  if reports then v.map (WatchSlot.reported (.object n)) else v

@[simp] theorem slotsAfter_true (v : Vec WatchSlot 16) (n : Nat) :
    slotsAfter v n true = v.map (WatchSlot.reported (.object n)) := rfl

@[simp] theorem slotsAfter_false (v : Vec WatchSlot 16) (n : Nat) : slotsAfter v n false = v := rfl

/-- Two events report as one event does that reports what either reports. -/
theorem slotsAfter_slotsAfter (v : Vec WatchSlot 16) (n : Nat) (a b : Bool) :
    slotsAfter (slotsAfter v n a) n b = slotsAfter v n (a || b) := by
  cases a <;> cases b <;> first | rfl | exact State.reported_reported _ _

/-- Exactly the slots that watch the record are marked, where it is reported. -/
theorem get_slotsAfter (v : Vec WatchSlot 16) (n : Nat) (b : Bool) (k : Fin 16) :
    (slotsAfter v n b).get k =
      if b = true ∧ (v.get k).subject = .object n then { v.get k with changed := true } else v.get k := by
  cases b <;> simp [WatchSlot.reported]

/-- From one state to another, only the record of a number, the watch slots as its report marks them, and the berth
events handed differ. -/
structure ObjectFrame (s t : State) (n : Nat) : Prop where
  eq : t = { s with objects := t.objects, watch := t.watch, berthEvents := t.berthEvents }
  others : ∀ k, k ≠ n → t.object k = s.object k
  watch : t.watch = s.watch ∨ t.watch = s.watch.map (WatchSlot.reported (.object n))

namespace ObjectFrame

theorem same (s : State) (n : Nat) : ObjectFrame s s n := ⟨rfl, fun _ _ => rfl, .inl rfl⟩

theorem trans (a : ObjectFrame s t n) (b : ObjectFrame t u n) : ObjectFrame s u n := by
  refine ⟨?_, fun k hk => (b.others k hk).trans (a.others k hk), ?_⟩
  · rw [b.eq, a.eq]
  · rcases a.watch with ha | ha <;> rcases b.watch with hb | hb <;> rw [hb, ha]
    · exact .inl rfl
    · exact .inr rfl
    · exact .inr rfl
    · exact .inr (State.reported_reported _ _)

/-- A report made before stays made. -/
theorem reported (f : ObjectFrame s t n) (h : s.watch = u.watch.map (WatchSlot.reported (.object n))) :
    t.watch = u.watch.map (WatchSlot.reported (.object n)) := by
  rcases f.watch with hw | hw <;> rw [hw, h]
  exact State.reported_reported _ _

theorem report (s : State) (n : Nat) : ObjectFrame s (s.report (.object n)) n :=
  ⟨rfl, fun _ _ => rfl, .inr rfl⟩

theorem setObject (s : State) (n : Nat) (r : ObjectRec) : ObjectFrame s (s.setObject n r) n :=
  ⟨rfl, fun _ h => State.object_setObject_ne s r (Ne.symm h), .inl rfl⟩

theorem setConds (s : State) (n : Nat) (cs : CondSet) : ObjectFrame s (s.setConds (.object n) cs) n := by
  simp only [State.setConds, State.onObject]
  split
  · exact (setObject s n _).trans (report _ n)
  · exact report s n

theorem endCause (s : State) (n : Nat) (c : Class) : ObjectFrame s (s.endCause (.object n) c) n := by
  simp only [State.endCause]
  split
  · exact setConds s n _
  · exact same s n

theorem beginCause (s : State) (n : Nat) (c : Class) (d : Detail) :
    ObjectFrame s (s.beginCause (.object n) c d) n := by
  simp only [State.beginCause, State.causeBegins]
  split
  · exact same s n
  · exact setConds s n _

theorem raiseMomentary (s : State) (n : Nat) (c : Class) (d : Detail) :
    ObjectFrame s (s.raiseMomentary (.object n) c d) n := setConds s n _

theorem hand (s : State) (n : Nat) (ev : BerthEvent) : ObjectFrame s (s.hand ev) n :=
  ⟨rfl, fun _ _ => rfl, .inl rfl⟩

end ObjectFrame

/-! ### What each operation leaves in the record -/

theorem State.onObject_of (h : s.object n = some r) (g : ObjectRec → ObjectRec) :
    s.onObject n g = s.setObject n (g r) := by simp [State.onObject, h]

/-- An entry of the record's own link clears its stale mark (R52). -/
theorem State.clearStale_spec (h : s.object n = some r) :
    ObjectFrame s (s.clearStale n r) n ∧ (s.clearStale n r).object n = some { r with stale := none } ∧
      (s.clearStale n r).berthEvents = s.berthEvents ∧
      (s.clearStale n r).watch = slotsAfter s.watch n r.stale.isSome := by
  unfold State.clearStale
  split
  · rename_i hs
    rw [State.onObject_of h, hs]
    exact ⟨(ObjectFrame.setObject s n _).trans (.report _ n), by simp, rfl, rfl⟩
  · rename_i hn
    simp at hn
    refine ⟨.same s n, ?_, rfl, by rw [hn]; rfl⟩
    rw [h]
    cases r
    simp_all

/-- A change of the state of record: dated and reported. -/
theorem State.changeRecord_spec (h : s.object n = some r) (date : Date) (k : KindRec) :
    ObjectFrame s (s.changeRecord n date k) n ∧
      (s.changeRecord n date k).object n = some { r with since := date, kind := k } ∧
      (s.changeRecord n date k).berthEvents = s.berthEvents ∧
      (s.changeRecord n date k).watch = s.watch.map (WatchSlot.reported (.object n)) := by
  unfold State.changeRecord
  rw [State.onObject_of h]
  exact ⟨(ObjectFrame.setObject s n _).trans (.report _ n), by simp, rfl, rfl⟩

/-- What an indication leaves: dated and reported when it changes the state of record. -/
theorem State.indicated_spec (h : s.object n = some r) (ch : Bool) (date : Date) (k : KindRec) :
    ObjectFrame s (s.indicated n ch date k) n ∧
      (s.indicated n ch date k).object n = some { r with since := if ch then date else r.since, kind := k } ∧
      (s.indicated n ch date k).berthEvents = s.berthEvents ∧
      (s.indicated n ch date k).watch = slotsAfter s.watch n ch := by
  cases ch
  · simp only [State.indicated, State.setKind, State.onObject_of h]
    exact ⟨.setObject s n _, by simp, rfl, rfl⟩
  · have := State.changeRecord_spec h date k
    exact ⟨this.1, this.2.1, this.2.2.1, this.2.2.2⟩

/-- The end of a cause is reported where the cause was active (R58). -/
theorem State.watch_endCause (h : s.object n = some r) (c : Class) :
    (s.endCause (.object n) c).watch = slotsAfter s.watch n (r.conds.active c) := by
  simp only [State.endCause, State.causeActive, State.condsOf_object s h]
  cases r.conds.active c
  · rfl
  · simp [State.setConds, State.onObject_of h]

/-- The begin of a cause is reported where the cause was not active (R58). -/
theorem State.watch_beginCause (h : s.object n = some r) (c : Class) (d : Detail) :
    (s.beginCause (.object n) c d).watch = slotsAfter s.watch n (!r.conds.active c) := by
  simp only [State.beginCause, State.causeActive, State.causeBegins, State.condsOf_object s h]
  cases r.conds.active c
  · simp [State.setConds, State.onObject_of h]
  · rfl

/-- Every momentary raise is reported (R58). -/
theorem State.watch_raiseMomentary (h : s.object n = some r) (c : Class) (d : Detail) :
    (s.raiseMomentary (.object n) c d).watch = slotsAfter s.watch n true := by
  simp [State.raiseMomentary, State.setConds, State.onObject_of h]

/-- The date of a change (R54, R56): raised to the state-since date, and AFTER_GAP from an unknown state or a
refresh. -/
theorem ObjectRec.changeDate_eq (r : ObjectRec) (e : TelegramEntry) (unknown : Bool)
    (h : r.kind.isUnknown = unknown) : r.changeDate e = ⟨max e.ms r.since.ms, e.quality,
      if unknown = true ∨ e.refresh = true then
        .afterGap (min (match r.stale with | some t => max r.since.ms t.ms | none => r.since.ms)
          (max e.ms r.since.ms))
      else .observed⟩ := by
  simp only [ObjectRec.changeDate, ObjectRec.raisedMs, ObjectRec.changeKind, ObjectRec.earliest, h]
  cases unknown <;> cases e.refresh <;> cases r.stale <;> simp

/-! ### Berths (R76 to R80) -/

/-- The conditions of a berth after a headcode, or none, has left it: UNPLANNED_TRAIN ends when it names that headcode
(R80). -/
def CondSet.afterExit (cs : CondSet) (gone : Option Headcode) : CondSet :=
  match cs.find .unplannedTrain with
  | some c =>
    match c.detail with
    | .unplannedTrain x _ => if gone = some x then cs.ended .unplannedTrain else cs
    | _ => cs
  | none => cs

theorem CondSet.afterExit_none (cs : CondSet) : cs.afterExit none = cs := by
  unfold CondSet.afterExit
  split
  · split <;> rfl
  · rfl

/-- The end of a cause that is not active changes nothing. -/
theorem CondSet.without_eq (cs : CondSet) (c : Class) : cs.without c = cs.ended c := by
  unfold CondSet.without
  split
  · rfl
  · rename_i h
    unfold CondSet.ended
    unfold CondSet.active at h
    split <;> simp_all
    split <;> simp_all [CondState.active]

/-- UNPLANNED_TRAIN ends exactly when it names the headcode that exits (R80). -/
theorem State.endUnplanned_spec (h : s.object n = some r) (x : Headcode) :
    ObjectFrame s (s.endUnplanned n x) n ∧ (s.endUnplanned n x).berthEvents = s.berthEvents ∧
      (s.endUnplanned n x).object n = some { r with conds := r.conds.afterExit (some x) } := by
  have stays : r.conds.afterExit (some x) = r.conds → ObjectFrame s s n ∧ s.berthEvents = s.berthEvents ∧
      s.object n = some { r with conds := r.conds.afterExit (some x) } := fun e => by
    rw [e]
    exact ⟨.same s n, rfl, h⟩
  unfold State.endUnplanned
  rw [State.condsOf_object s h]
  split
  · rename_i c found
    split
    · rename_i y _ detail
      by_cases hx : y = x
      · subst hx
        simp only [if_true]
        exact ⟨.endCause s n _, by simp,
          by rw [State.object_endCause h, CondSet.without_eq]; simp [CondSet.afterExit, found, detail]⟩
      · rw [if_neg hx]
        exact stays (by simp [CondSet.afterExit, found, detail, Ne.symm hx])
    · rename_i other
      refine stays ?_
      simp only [CondSet.afterExit, found]
  · rename_i absent
    exact stays (by simp [CondSet.afterExit, absent])

/-- A headcode enters its to-berth (R77, R79). -/
theorem State.occupy_spec (b : BerthRec) (h : Headcode) (e : TelegramEntry) (hk : r.kind = .berth b)
    (ho : s.object n = some { r with stale := none }) (date : Date) (hd : r.changeDate e = date) :
    ObjectFrame s (s.occupy n r b h e) n ∧
      (s.occupy n r b h e).berthEvents = s.berthEvents ++ (match b.occupancy with
        | .occupied x => if x = h then [] else [⟨n, x, .exit, date⟩, ⟨n, h, .entry b.timing, date⟩]
        | .empty => [⟨n, h, .entry b.timing, date⟩]
        | .unknown => [⟨n, h, .entry b.timing, date⟩]) ∧
      (s.occupy n r b h e).watch = (if b.occupancy = .occupied h then s.watch
        else s.watch.map (WatchSlot.reported (.object n))) ∧
      (s.occupy n r b h e).object n = some { r with
        stale := none
        since := if b.occupancy = .occupied h then r.since else date
        conds := r.conds.afterExit (match b.occupancy with
          | .occupied x => if x = h then none else some x
          | .empty => none
          | .unknown => none)
        kind := .berth { b with occupancy := .occupied h } } := by
  obtain ⟨f, o, be, w⟩ := State.changeRecord_spec ho date (.berth { b with occupancy := .occupied h })
  unfold State.occupy
  rw [hd]
  cases hb : b.occupancy with
  | unknown => exact ⟨f.trans (.hand _ _ _), by simp [be], w, by simp [o, CondSet.afterExit_none]⟩
  | empty => exact ⟨f.trans (.hand _ _ _), by simp [be], w, by simp [o, CondSet.afterExit_none]⟩
  | occupied x =>
    simp only
    by_cases hx : x = h
    · subst hx
      simp only [if_true, List.append_nil, CondSet.afterExit_none]
      refine ⟨.same s n, trivial, trivial, ?_⟩
      rw [ho]
      have : ({ b with occupancy := .occupied x } : BerthRec) = b := by cases b; simp_all
      rw [this, ← hk]
    · have ne : ¬ Occupancy.occupied x = .occupied h := by intro hh; injection hh with hh; exact hx hh
      rw [if_neg hx, if_neg hx, if_neg hx, if_neg ne, if_neg ne]
      obtain ⟨f2, be2, o2⟩ := State.endUnplanned_spec o x
      exact ⟨((f.trans f2).trans (.hand _ _ _)).trans (.hand _ _ _), by simp [be2, be], f2.reported w, by simp [o2]⟩

/-- A berth is emptied (R76, R78, R79). -/
theorem State.vacate_spec (b : BerthRec) (e : TelegramEntry) (hk : r.kind = .berth b)
    (ho : s.object n = some { r with stale := none }) (date : Date) (hd : r.changeDate e = date) :
    ObjectFrame s (s.vacate n r b e) n ∧
      (s.vacate n r b e).berthEvents = s.berthEvents ++ (match b.occupancy with
        | .occupied x => [⟨n, x, .exit, date⟩]
        | .empty => []
        | .unknown => []) ∧
      (s.vacate n r b e).watch = (if b.occupancy = .empty then s.watch
        else s.watch.map (WatchSlot.reported (.object n))) ∧
      (s.vacate n r b e).object n = some { r with
        stale := none
        since := if b.occupancy = .empty then r.since else date
        conds := r.conds.afterExit (match b.occupancy with
          | .occupied x => some x
          | .empty => none
          | .unknown => none)
        kind := .berth { b with occupancy := .empty } } := by
  obtain ⟨f, o, be, w⟩ := State.changeRecord_spec ho date (.berth { b with occupancy := .empty })
  unfold State.vacate
  rw [hd]
  cases hb : b.occupancy with
  | unknown => exact ⟨f, by simp [be], w, by simp [o, CondSet.afterExit_none]⟩
  | empty =>
    refine ⟨.same s n, (List.append_nil _).symm, rfl, ?_⟩
    have : ({ b with occupancy := .empty } : BerthRec) = b := by cases b; simp_all
    simp only [this, ← hk, if_true, ho, CondSet.afterExit_none]
  | occupied x =>
    obtain ⟨f2, be2, o2⟩ := State.endUnplanned_spec o x
    exact ⟨(f.trans f2).trans (.hand _ _ _), by simp [be2, be], f2.reported w, by simp [o2]⟩

/-! ### Taking an entry (R31, R50, R51) -/

theorem State.popped_eq {i : Fin 4} {x : QueueEntry} {rest : List QueueEntry} (h : (s.link i).queue = x :: rest) :
    s.onLink i Link.popped = s.withoutHead i rest := by
  simp only [State.onLink, State.withoutHead, Link.popped]
  cases hp : (s.link i).pendingMarker <;> simp [h]

/-- A telegram entry at the head of a queue is taken and served. -/
theorem State.exec_takeTelegramEntry {i : Fin 4} {e : TelegramEntry} {rest : List QueueEntry} (held : s.held = false)
    (h : (s.link i).queue = .telegram e :: rest) :
    exec (.takeTelegramEntry i) s = .next ((s.withoutHead i rest).serveEntry e).settle := by
  show (s.whenRunning fun s => s.takeTelegram i).answer = _
  rw [State.whenRunning_of _ held, State.takeTelegram, h]
  simp only
  rw [State.popped_eq h]
  rfl

theorem State.checkRecord_none {k : ObjectKind} {i : Fin 4} (h : ¬ (1 ≤ n ∧ n ≤ 4095) ∨ s.object n = none) :
    s.checkRecord n k i = some .unknownObject := by
  unfold State.checkRecord
  split
  · rfl
  · rcases h with h | h
    · omega
    · rw [h]

theorem State.checkRecord_some {k : ObjectKind} {i : Fin 4} (range : 1 ≤ n ∧ n ≤ 4095) (h : s.object n = some r) :
    s.checkRecord n k i =
      if r.kind.kindOf ≠ k then some .kindMismatch else if r.link ≠ i then some .linkMismatch else none := by
  unfold State.checkRecord
  rw [if_neg (by omega), h]

/-- An entry that passes its checks and names no from-berth is applied to its record. -/
theorem State.exec_appliesEntry {i : Fin 4} {e : TelegramEntry} {rest : List QueueEntry} (held : s.held = false)
    (h : (s.link i).queue = .telegram e :: rest) (range : 1 ≤ e.object ∧ e.object ≤ 4095)
    (stored : s.object e.object = some r) (link : r.link = e.link) (kind : r.kind.kindOf = e.content.needs)
    (source : e.source = none) :
    exec (.takeTelegramEntry i) s = .next ((s.withoutHead i rest).applyEntry e).settle := by
  rw [State.exec_takeTelegramEntry held h, State.serveEntry]
  have same : ∀ n k j, (s.withoutHead i rest).checkRecord n k j = s.checkRecord n k j := fun _ _ _ => rfl
  have passes : (s.withoutHead i rest).checkEntry e = none := by
    rw [State.checkEntry, same, State.checkRecord_some range stored, if_neg (by simp [kind]), if_neg (by simp [link]),
      source]
  rw [passes]

/-- The frame of a served entry, seen from before it was taken. -/
theorem ObjectFrame.settle {i : Fin 4} {rest : List QueueEntry} (f : ObjectFrame (s.withoutHead i rest) t n) :
    t.settle = { s with
      links := (s.withoutHead i rest).links, objects := t.settle.objects, watch := t.settle.watch
      berthEvents := t.settle.berthEvents, attnU := t.settle.attnU, attnR := t.settle.attnR } := by
  have : ∀ a b, { t with attnU := a, attnR := b } = { s with
      links := (s.withoutHead i rest).links, objects := t.objects, watch := t.watch, berthEvents := t.berthEvents
      attnU := a, attnR := b } := by
    intro a b
    rw [f.eq]
    rfl
  exact this _ _

/-! ### Requests of the Object Table -/

theorem ObjectKind.ofCode_code (k : ObjectKind) : ObjectKind.ofCode k.code = some k := by cases k <;> rfl

theorem ObjectKind.ofCode_none {n : Nat} (h : ¬ (1 ≤ n ∧ n ≤ 3)) : ObjectKind.ofCode n = none := by
  rcases n with _ | _ | _ | _ | n
  all_goals first | rfl | omega

/-- AMEND OBJECT's body (R46 check 1): outside its ranges nothing is read; within them, the kind and the link after the
amendment, and the limit and the timing given. -/
theorem amendFields_spec {body : List Byte} :
    let n := field body 0 2
    let given := fun bit : Nat => (byteAt body 2).getLsbD bit
    let newKind := (byteAt body 3).toNat
    let newLink := (byteAt body 4).toNat
    let timing := (byteAt body 7).toNat
    let inRange := (1 ≤ n ∧ n ≤ 4095) ∧ (given 0 → 1 ≤ newKind ∧ newKind ≤ 3) ∧ (given 1 → newLink ≤ 3) ∧
      (given 3 → timing ≤ 1)
    (¬ inRange → amendFields body = none) ∧
    ∀ (r : ObjectRec) (kind : ObjectKind) (link : Fin 4), inRange →
      kind.code = (if given 0 then newKind else r.kind.kindOf.code) →
      link.val = (if given 1 then newLink else r.link.val) →
      ∃ a, amendFields body = some a ∧ a.kindAfter r = kind ∧ a.link.getD r.link = link ∧
        a.limit = (if given 2 then some (field body 5 2) else none) ∧
        a.timing = if given 3 then some (decide (timing = 1)) else none := by
  intro n given newKind newLink timing inRange
  have num : objectNumber n = true ↔ 1 ≤ n ∧ n ≤ 4095 := by simp [objectNumber]
  have af : amendFields body = if objectNumber n = true then
     match amendPart (given 0) (ObjectKind.ofCode newKind), amendPart (given 1) (linkNumber newLink),
       amendPart (given 3) (timingOf timing) with
     | some kind, some link, some t => some ⟨kind, link, if given 2 then some (field body 5 2) else none, t⟩
     | _, _, _ => none else none := rfl
  have tim : ∀ t, timingOf t = if t ≤ 1 then some (decide (t = 1)) else none := by
    intro t; rcases t with _ | _ | t <;> simp [timingOf]
  refine ⟨fun h => ?_, fun r kind link ⟨hn, h0, h1, h3⟩ hk hl => ?_⟩
  · rw [af]
    by_cases hn : 1 ≤ n ∧ n ≤ 4095
    · rw [if_pos (num.mpr hn)]
      by_cases h0 : given 0 = true → 1 ≤ newKind ∧ newKind ≤ 3
      · by_cases h1 : given 1 = true → newLink ≤ 3
        · have h3 : ¬ (given 3 = true → timing ≤ 1) := fun h3 => h ⟨hn, h0, h1, h3⟩
          push Not at h3
          have : amendPart (given 3) (timingOf timing) = none := by
            rw [h3.1, tim, if_neg (by omega)]; rfl
          rw [this]; split <;> first | rfl | simp_all
        · push Not at h1
          have : amendPart (given 1) (linkNumber newLink) = none := by
            rw [h1.1, linkNumber, dif_neg (by omega)]; rfl
          rw [this]; split <;> first | rfl | simp_all
      · push Not at h0
        have : amendPart (given 0) (ObjectKind.ofCode newKind) = none := by
          rw [h0.1, ObjectKind.ofCode_none (by omega)]; rfl
        rw [this]
    · rw [if_neg (fun x => hn (num.mp x))]
  · have k : ∃ x, amendPart (given 0) (ObjectKind.ofCode newKind) = some x ∧ x.getD r.kind.kindOf = kind := by
      cases g : given 0
      · rw [g] at hk
        refine ⟨none, rfl, ?_⟩
        have : ObjectKind.ofCode kind.code = ObjectKind.ofCode r.kind.kindOf.code := by rw [hk]; rfl
        rw [ObjectKind.ofCode_code, ObjectKind.ofCode_code] at this
        exact (Option.some.inj this).symm
      · rw [g] at hk
        refine ⟨some kind, ?_, rfl⟩
        rw [if_pos rfl] at hk
        rw [← hk, ObjectKind.ofCode_code]; rfl
    have l : ∃ x, amendPart (given 1) (linkNumber newLink) = some x ∧ x.getD r.link = link := by
      cases g : given 1
      · rw [g] at hl
        exact ⟨none, rfl, Fin.ext hl.symm⟩
      · rw [g, if_pos rfl] at hl
        refine ⟨some link, ?_, rfl⟩
        rw [← hl, linkNumber, dif_pos link.isLt]; rfl
    have t : amendPart (given 3) (timingOf timing) = some (if given 3 then some (decide (timing = 1)) else none) := by
      cases g : given 3
      · rfl
      · rw [tim, if_pos (h3 g)]; rfl
    obtain ⟨x, hx, hx'⟩ := k
    obtain ⟨y, hy, hy'⟩ := l
    refine ⟨⟨x, y, if given 2 = true then some (field body 5 2) else none,
      if given 3 = true then some (decide (timing = 1)) else none⟩, ?_, hx', hy', rfl, rfl⟩
    rw [af, if_pos (num.mpr hn), hx, hy, t]

/-- When an object is referenced (R47). -/
theorem State.referenced_iff {s : State} {n : Nat} {r : ObjectRec} : s.referenced n r = true ↔
    (∃ x ∈ s.tc.paths, (x.2.state ∈ [PathState.loaded, .armed, .running] ∨
        ∃ op, s.tc.repeatOp = some op ∧ op.template = x.1) ∧
        ∃ y ∈ x.2.points, y.plan.berth = n ∨ ∃ c, y.plan.route = some c ∧ c.point = n) ∨
      (∃ p m, r.kind = .point p ∧ p.movement = some m) ∨ (∃ g c, r.kind = .signal g ∧ g.clearing = some c) ∨
      ∃ b, r.kind = .berth b ∧ b.queue ≠ [] := by
  simp only [State.referenced, Bool.or_eq_true, List.any_eq_true, Bool.and_eq_true]
  refine or_congr ?_ ?_
  · refine exists_congr fun x => and_congr Iff.rfl (and_congr (or_congr ?_ ?_) ?_)
    · cases x.2.state <;> simp [PathState.live]
    · simp only [State.isTemplate]; cases s.tc.repeatOp <;> simp
    · simp only [PathRec.names, List.any_eq_true, Plan.names, Bool.or_eq_true, decide_eq_true_eq]
      refine exists_congr fun y => and_congr Iff.rfl (or_congr Iff.rfl ?_)
      cases y.plan.route <;> simp
  · cases hk : r.kind with
    | point p => cases hm : p.movement <;> simp [KindRec.inFlight, hm]
    | signal g => cases hm : g.clearing <;> simp [KindRec.inFlight, hm]
    | berth b => cases hm : b.queue <;> simp [KindRec.inFlight, hm]

end Sys2Proof.Machine
end

