-- ==== Sys2Proof/WellFormed.lean ====
section
/-! DEFINITION. Which commands the part's neighbours can send: the operands a row of the table admits
that the types of `Instr` do not already bound. -/

namespace Sys2Proof

/-- A record of the Object Table has a number from 1 to 4,095 (R43). -/
def objectNumberOk (n : Nat) : Bool := decide (1 ≤ n) && decide (n ≤ 4095)

/-- The limit timers belong to object records (R62). Every other operand is bounded by its type: a link or
a line is 0 to 3, a byte is a byte, and a frame may hold any bytes (R171 judges it). -/
def Instr.wellFormed : Instr → Bool
  | .throwLimitExpiry n => objectNumberOk n
  | .clearLimitExpiry n => objectNumberOk n
  | .powerOn | .restartTaken | .restartRelease | .refMsgComplete _ | .refMsgInterByteTimeout
  | .refMsgBadCharacter | .refPpsEdge | .tcTakesTimeAnnouncement | .scTakesTimeAnnouncement
  | .referenceGapExpiry | .holdoverLimitExpiry | .endOfRangeHold | .setTime _ | .getTime _
  | .getTimeStatus _ | .telegramReceived _ _ | .linkInterByteTimeout _ | .linkBadCharacter _
  | .lengthByteRejected _ _ | .silenceExpiry _ | .unlockCapture _ | .readLink _ | .defineObject _
  | .amendObject _ | .retireObject _ | .readObject _ | .findObjects _ | .takeTelegramEntry _
  | .takeGapMarker _ | .unmatchedAnswer | .berthEvent | .loadPath _ | .amendTimingPoint _ | .shiftPath _
  | .copyPath _ | .repeatPath _ | .repeatCopyCreation | .armPath _ | .cancelPath _ | .retirePath _
  | .readPath _ | .findPaths _ | .readBerthQueue _ | .digestPlan _ | .digestWalkStep | .activation
  | .overdueService | .lostService | .retireDeadlineExpiry | .dialTargetChange | .impulseSense _ _
  | .impulseCompletion _ | .gapEnd _ | .faultRetryExpiry _ | .dialSet _ | .readLine _ | .nextCondition _
  | .ackCondition _ | .readConditions _ | .readResponse _ | .unknownRequestFrame _ | .setWatch _
  | .readWatch _ | .getStatus _ | .clearEditFault _ | .setSetting _ | .readSettings _ | .saveSettings _
  | .saveWriteComplete _ | .linkCharacterReceived _ _ | .refMsgCharacter _ => true

end Sys2Proof
end

