-- ==== Sys2Proof/Laws/PerInstr.lean ====
section
/-! SUPPORT. Statements made for every command, one lemma per constructor: which commands are well formed. -/

namespace Sys2Proof.Laws.WellFormed

/-- A command is well formed unless it is a limit timer of an object number outside 1 to 4,095 (R43, R62). -/
def Statement (i : Instr) : Prop :=
  i.wellFormed = true ↔ ∀ n, i = .throwLimitExpiry n ∨ i = .clearLimitExpiry n → 1 ≤ n ∧ n ≤ 4095

/-- A command that is no limit timer is well formed. -/
theorem of_no_timer {i : Instr} (h : i.wellFormed = true) (ht : ∀ n, i ≠ .throwLimitExpiry n)
    (hc : ∀ n, i ≠ .clearLimitExpiry n) : Statement i :=
  ⟨fun _ n e => (e.elim (ht n) (hc n)).elim, fun _ => h⟩

theorem powerOn : Statement .powerOn :=
  of_no_timer rfl (fun _ => nofun) fun _ => nofun

theorem restartTaken : Statement .restartTaken :=
  of_no_timer rfl (fun _ => nofun) fun _ => nofun

theorem restartRelease : Statement .restartRelease :=
  of_no_timer rfl (fun _ => nofun) fun _ => nofun

theorem refMsgComplete (byte : Byte) : Statement (.refMsgComplete byte) :=
  of_no_timer rfl (fun _ => nofun) fun _ => nofun

theorem refMsgInterByteTimeout : Statement .refMsgInterByteTimeout :=
  of_no_timer rfl (fun _ => nofun) fun _ => nofun

theorem refMsgBadCharacter : Statement .refMsgBadCharacter :=
  of_no_timer rfl (fun _ => nofun) fun _ => nofun

theorem refPpsEdge : Statement .refPpsEdge :=
  of_no_timer rfl (fun _ => nofun) fun _ => nofun

theorem tcTakesTimeAnnouncement : Statement .tcTakesTimeAnnouncement :=
  of_no_timer rfl (fun _ => nofun) fun _ => nofun

theorem scTakesTimeAnnouncement : Statement .scTakesTimeAnnouncement :=
  of_no_timer rfl (fun _ => nofun) fun _ => nofun

theorem referenceGapExpiry : Statement .referenceGapExpiry :=
  of_no_timer rfl (fun _ => nofun) fun _ => nofun

theorem holdoverLimitExpiry : Statement .holdoverLimitExpiry :=
  of_no_timer rfl (fun _ => nofun) fun _ => nofun

theorem endOfRangeHold : Statement .endOfRangeHold :=
  of_no_timer rfl (fun _ => nofun) fun _ => nofun

theorem setTime (frame : ReqFrame) : Statement (.setTime frame) :=
  of_no_timer rfl (fun _ => nofun) fun _ => nofun

theorem getTime (frame : ReqFrame) : Statement (.getTime frame) :=
  of_no_timer rfl (fun _ => nofun) fun _ => nofun

theorem getTimeStatus (frame : ReqFrame) : Statement (.getTimeStatus frame) :=
  of_no_timer rfl (fun _ => nofun) fun _ => nofun

theorem telegramReceived (link : Fin 4) (byte : Byte) : Statement (.telegramReceived link byte) :=
  of_no_timer rfl (fun _ => nofun) fun _ => nofun

theorem linkInterByteTimeout (link : Fin 4) : Statement (.linkInterByteTimeout link) :=
  of_no_timer rfl (fun _ => nofun) fun _ => nofun

theorem linkBadCharacter (link : Fin 4) : Statement (.linkBadCharacter link) :=
  of_no_timer rfl (fun _ => nofun) fun _ => nofun

theorem lengthByteRejected (link : Fin 4) (byte : Byte) : Statement (.lengthByteRejected link byte) :=
  of_no_timer rfl (fun _ => nofun) fun _ => nofun

theorem silenceExpiry (link : Fin 4) : Statement (.silenceExpiry link) :=
  of_no_timer rfl (fun _ => nofun) fun _ => nofun

theorem unlockCapture (frame : ReqFrame) : Statement (.unlockCapture frame) :=
  of_no_timer rfl (fun _ => nofun) fun _ => nofun

theorem readLink (frame : ReqFrame) : Statement (.readLink frame) :=
  of_no_timer rfl (fun _ => nofun) fun _ => nofun

theorem defineObject (frame : ReqFrame) : Statement (.defineObject frame) :=
  of_no_timer rfl (fun _ => nofun) fun _ => nofun

theorem amendObject (frame : ReqFrame) : Statement (.amendObject frame) :=
  of_no_timer rfl (fun _ => nofun) fun _ => nofun

theorem retireObject (frame : ReqFrame) : Statement (.retireObject frame) :=
  of_no_timer rfl (fun _ => nofun) fun _ => nofun

theorem readObject (frame : ReqFrame) : Statement (.readObject frame) :=
  of_no_timer rfl (fun _ => nofun) fun _ => nofun

theorem findObjects (frame : ReqFrame) : Statement (.findObjects frame) :=
  of_no_timer rfl (fun _ => nofun) fun _ => nofun

theorem takeTelegramEntry (link : Fin 4) : Statement (.takeTelegramEntry link) :=
  of_no_timer rfl (fun _ => nofun) fun _ => nofun

theorem takeGapMarker (link : Fin 4) : Statement (.takeGapMarker link) :=
  of_no_timer rfl (fun _ => nofun) fun _ => nofun

theorem throwLimitExpiry (object : Nat) : Statement (.throwLimitExpiry object) := by
  simp only [Statement, Instr.wellFormed, objectNumberOk, Bool.and_eq_true, decide_eq_true_eq]
  constructor
  · rintro h n (e | e) <;> cases e
    exact h
  · exact fun h => h _ (Or.inl rfl)

theorem clearLimitExpiry (object : Nat) : Statement (.clearLimitExpiry object) := by
  simp only [Statement, Instr.wellFormed, objectNumberOk, Bool.and_eq_true, decide_eq_true_eq]
  constructor
  · rintro h n (e | e) <;> cases e
    exact h
  · exact fun h => h _ (Or.inr rfl)

theorem unmatchedAnswer : Statement .unmatchedAnswer :=
  of_no_timer rfl (fun _ => nofun) fun _ => nofun

theorem berthEvent : Statement .berthEvent :=
  of_no_timer rfl (fun _ => nofun) fun _ => nofun

theorem loadPath (frame : ReqFrame) : Statement (.loadPath frame) :=
  of_no_timer rfl (fun _ => nofun) fun _ => nofun

theorem amendTimingPoint (frame : ReqFrame) : Statement (.amendTimingPoint frame) :=
  of_no_timer rfl (fun _ => nofun) fun _ => nofun

theorem shiftPath (frame : ReqFrame) : Statement (.shiftPath frame) :=
  of_no_timer rfl (fun _ => nofun) fun _ => nofun

theorem copyPath (frame : ReqFrame) : Statement (.copyPath frame) :=
  of_no_timer rfl (fun _ => nofun) fun _ => nofun

theorem repeatPath (frame : ReqFrame) : Statement (.repeatPath frame) :=
  of_no_timer rfl (fun _ => nofun) fun _ => nofun

theorem repeatCopyCreation : Statement .repeatCopyCreation :=
  of_no_timer rfl (fun _ => nofun) fun _ => nofun

theorem armPath (frame : ReqFrame) : Statement (.armPath frame) :=
  of_no_timer rfl (fun _ => nofun) fun _ => nofun

theorem cancelPath (frame : ReqFrame) : Statement (.cancelPath frame) :=
  of_no_timer rfl (fun _ => nofun) fun _ => nofun

theorem retirePath (frame : ReqFrame) : Statement (.retirePath frame) :=
  of_no_timer rfl (fun _ => nofun) fun _ => nofun

theorem readPath (frame : ReqFrame) : Statement (.readPath frame) :=
  of_no_timer rfl (fun _ => nofun) fun _ => nofun

theorem findPaths (frame : ReqFrame) : Statement (.findPaths frame) :=
  of_no_timer rfl (fun _ => nofun) fun _ => nofun

theorem readBerthQueue (frame : ReqFrame) : Statement (.readBerthQueue frame) :=
  of_no_timer rfl (fun _ => nofun) fun _ => nofun

theorem digestPlan (frame : ReqFrame) : Statement (.digestPlan frame) :=
  of_no_timer rfl (fun _ => nofun) fun _ => nofun

theorem digestWalkStep : Statement .digestWalkStep :=
  of_no_timer rfl (fun _ => nofun) fun _ => nofun

theorem activation : Statement .activation :=
  of_no_timer rfl (fun _ => nofun) fun _ => nofun

theorem overdueService : Statement .overdueService :=
  of_no_timer rfl (fun _ => nofun) fun _ => nofun

theorem lostService : Statement .lostService :=
  of_no_timer rfl (fun _ => nofun) fun _ => nofun

theorem retireDeadlineExpiry : Statement .retireDeadlineExpiry :=
  of_no_timer rfl (fun _ => nofun) fun _ => nofun

theorem dialTargetChange : Statement .dialTargetChange :=
  of_no_timer rfl (fun _ => nofun) fun _ => nofun

theorem impulseSense (line : Fin 4) (sense : Sense) : Statement (.impulseSense line sense) :=
  of_no_timer rfl (fun _ => nofun) fun _ => nofun

theorem impulseCompletion (line : Fin 4) : Statement (.impulseCompletion line) :=
  of_no_timer rfl (fun _ => nofun) fun _ => nofun

theorem gapEnd (line : Fin 4) : Statement (.gapEnd line) :=
  of_no_timer rfl (fun _ => nofun) fun _ => nofun

theorem faultRetryExpiry (line : Fin 4) : Statement (.faultRetryExpiry line) :=
  of_no_timer rfl (fun _ => nofun) fun _ => nofun

theorem dialSet (frame : ReqFrame) : Statement (.dialSet frame) :=
  of_no_timer rfl (fun _ => nofun) fun _ => nofun

theorem readLine (frame : ReqFrame) : Statement (.readLine frame) :=
  of_no_timer rfl (fun _ => nofun) fun _ => nofun

theorem nextCondition (frame : ReqFrame) : Statement (.nextCondition frame) :=
  of_no_timer rfl (fun _ => nofun) fun _ => nofun

theorem ackCondition (frame : ReqFrame) : Statement (.ackCondition frame) :=
  of_no_timer rfl (fun _ => nofun) fun _ => nofun

theorem readConditions (frame : ReqFrame) : Statement (.readConditions frame) :=
  of_no_timer rfl (fun _ => nofun) fun _ => nofun

theorem readResponse (clocked : Nat) : Statement (.readResponse clocked) :=
  of_no_timer rfl (fun _ => nofun) fun _ => nofun

theorem unknownRequestFrame (transfer : OtherTransfer) : Statement (.unknownRequestFrame transfer) :=
  of_no_timer rfl (fun _ => nofun) fun _ => nofun

theorem setWatch (frame : ReqFrame) : Statement (.setWatch frame) :=
  of_no_timer rfl (fun _ => nofun) fun _ => nofun

theorem readWatch (frame : ReqFrame) : Statement (.readWatch frame) :=
  of_no_timer rfl (fun _ => nofun) fun _ => nofun

theorem getStatus (frame : ReqFrame) : Statement (.getStatus frame) :=
  of_no_timer rfl (fun _ => nofun) fun _ => nofun

theorem clearEditFault (frame : ReqFrame) : Statement (.clearEditFault frame) :=
  of_no_timer rfl (fun _ => nofun) fun _ => nofun

theorem setSetting (frame : ReqFrame) : Statement (.setSetting frame) :=
  of_no_timer rfl (fun _ => nofun) fun _ => nofun

theorem readSettings (frame : ReqFrame) : Statement (.readSettings frame) :=
  of_no_timer rfl (fun _ => nofun) fun _ => nofun

theorem saveSettings (frame : ReqFrame) : Statement (.saveSettings frame) :=
  of_no_timer rfl (fun _ => nofun) fun _ => nofun

theorem saveWriteComplete (agrees : Bool) : Statement (.saveWriteComplete agrees) :=
  of_no_timer rfl (fun _ => nofun) fun _ => nofun

theorem linkCharacterReceived (link : Fin 4) (byte : Byte) : Statement (.linkCharacterReceived link byte) :=
  of_no_timer rfl (fun _ => nofun) fun _ => nofun

theorem refMsgCharacter (byte : Byte) : Statement (.refMsgCharacter byte) :=
  of_no_timer rfl (fun _ => nofun) fun _ => nofun

end Sys2Proof.Laws.WellFormed
end

