-- ==== Sys2Proof/Laws/Responses.lean ====
section
/-! SUPPORT. The widths of the records on the wire (chapter 11): one lemma for each record. -/

namespace Sys2Proof.Machine

@[simp] theorem length_toBe (width n : Nat) : (toBe width n).length = width := by
  induction width generalizing n with
  | zero => rfl
  | succ width ih => simp [toBe, ih]

@[simp] theorem length_toBeInt (width : Nat) (z : Int) : (toBeInt width z).length = width := length_toBe ..

@[simp] theorem length_one (n : Nat) : (one n).length = 1 := rfl

@[simp] theorem length_absent (width : Nat) : (absent width).length = width := List.length_replicate

@[simp] theorem length_headcode (h : Headcode) : h.bytes.length = 4 := rfl

@[simp] theorem length_stationBytes (ms : Nat) : (stationBytes ms).length = 6 := by simp [stationBytes]

@[simp] theorem length_stationQ (q : StationQ) : q.bytes.length = 7 := by simp [StationQ.bytes]

/-- Table 11-4: 14 bytes. -/
@[simp] theorem length_date (d : Date) : d.bytes.length = 14 := by
  cases h : d.kind <;> simp [Date.bytes, h]

/-- A field that may be absent takes its presence byte and its width, present or not (R187). -/
theorem length_optionalBytes {α : Type} {width : Nat} {field : α → List Byte} (x : Option α)
    (h : ∀ a, (field a).length = width) : (optionalBytes width (x.map field)).length = width + 1 := by
  cases x with
  | none => simp [optionalBytes, Nat.add_comm]
  | some a => simp [optionalBytes, h, Nat.add_comm]

@[simp] theorem optionalBytes_none (width : Nat) : optionalBytes width none = List.replicate (width + 1) 0 := rfl

@[simp] theorem length_headcodeField (x : StateOfRecord) : x.headcodeBytes.length = 4 := by
  rcases x with _ | _ | (_ | _ | h) <;> rfl

/-- Table 11-5: 14 bytes. -/
@[simp] theorem length_plan (p : Plan) : p.bytes.length = 14 := by
  cases h : p.route <;> simp [Plan.bytes, h]

/-- The outcome part of READ PATH: 20 bytes. -/
@[simp] theorem length_outcome (o : Option OutcomePart) : (outcomeBytes o).length = 20 := by
  cases o with
  | none => simp [outcomeBytes]
  | some o =>
    have dev := length_optionalBytes (width := 2) o.deviation (fun d => length_toBeInt 2 d)
    cases h : o.actual <;> simp [outcomeBytes, h, dev]

/-- Table 11-6: 33 bytes. -/
@[simp] theorem length_objectSummary (o : ObjectSummary) : o.bytes.length = 33 := by
  cases h : o.stale <;> simp [ObjectSummary.bytes, h]

/-- Table 11-7: 18 bytes. -/
@[simp] theorem length_pathSummary (p : PathSummary) : p.bytes.length = 18 := by
  have dev := length_optionalBytes (width := 2) p.lastDeviation (fun d => length_toBeInt 2 d)
  simp [PathSummary.bytes, dev]

@[simp] theorem length_detail (d : Detail) : d.bytes.length = 16 := by
  simp [Detail.bytes]

/-- Table 11-8: 44 bytes. -/
@[simp] theorem length_conditionView (v : ConditionView) : v.bytes.length = 44 := by
  simp [ConditionView.bytes]

/-- The latch record of R174: 7 bytes. -/
@[simp] theorem length_latchRecord (v : LatchRecord) : v.bytes.length = 7 := by
  have index := length_optionalBytes (width := 1) v.index (fun n => length_one n)
  simp [LatchRecord.bytes, index]

/-! ### The long-operation slot (R179, R187) -/

/-- The kind of long operation a result is the result of. -/
def LongResult.kind : LongResult → LongOp
  | .copies _ => .repeatPath
  | .digest _ _ _ _ => .digestPlan
  | .save _ => .saveSettings

@[simp] theorem length_longResult (x : LongResult) : x.bytes.length = x.kind.resultWidth := by
  cases x <;> simp [LongResult.bytes, LongResult.kind, LongOp.resultWidth]

@[simp] theorem length_acceptedBytes (kind : LongOp) (tag : Byte) (accepted : Date) :
    (acceptedBytes kind tag accepted).length = 16 := by simp [acceptedBytes]

/-- A slot in flight is as long as the completed slot of its kind. -/
theorem length_slot_inFlight (kind : LongOp) (tag : Byte) (accepted : Date) :
    (Slot.inFlight kind tag accepted).bytes.length = 33 + kind.resultWidth := by
  simp [Slot.bytes, absentDone]; omega

theorem length_slot_done (c : Completion) : (Slot.done c).bytes.length = 33 + c.result.kind.resultWidth := by
  simp [Slot.bytes, Completion.doneBytes]; omega

end Sys2Proof.Machine
end

