-- ==== Sys2Proof/Laws/Settings.lean ====
section
/-! SUPPORT. Reading a working setting after writing one, and the hand-over of a change while a request is in work. -/

namespace Sys2Proof.Machine

/-! ### Reading and writing (R181, R182) -/

theorem index4_ne {a b : Nat} (ha : a ∈ [0, 1, 2, 3]) (hb : b ∈ [0, 1, 2, 3]) (h : a ≠ b) : index4 a ≠ index4 b := by
  intro e
  have := congrArg Fin.val e
  simp only [index4, List.mem_cons, List.not_mem_nil, or_false] at this ha hb
  omega

theorem index21_ne {a b : Nat} (ha : a ∈ SettingItem.classPriority.numbers) (hb : b ∈ SettingItem.classPriority.numbers)
    (h : a ≠ b) : index21 a ≠ index21 b := by
  intro e
  have := congrArg Fin.val e
  simp only [index21, SettingItem.numbers, List.mem_cons, List.not_mem_nil, or_false] at this ha hb
  omega

theorem boolCode_decide {v : Int} (h : 0 ≤ v ∧ v ≤ 1) : boolCode (decide (v = 1)) = v := by
  have : v = 0 ∨ v = 1 := by omega
  rcases this with rfl | rfl <;> rfl

theorem SettingItem.inRange_iff (i : SettingItem) (v : Int) :
    i.inRange v = true ↔ i.range.1 ≤ v ∧ v ≤ i.range.2 := by
  simp [SettingItem.inRange]

/-- A setting written within its range reads back. -/
theorem Settings.read_write_self (w : Settings) (i : SettingItem) (n : Nat) {v : Int} (h : i.inRange v = true) :
    (w.write i n v).read i n = v := by
  rw [SettingItem.inRange_iff] at h
  cases i with
  | linkEnable => simpa [Settings.read, Settings.write] using boolCode_decide h
  | lineEnable => simpa [Settings.read, Settings.write] using boolCode_decide h
  | watchAttention => simpa [Settings.read, Settings.write] using boolCode_decide h
  | dialKind =>
    simp only [SettingItem.range] at h
    have : v = 0 ∨ v = 1 := by omega
    rcases this with rfl | rfl <;> simp [Settings.read, Settings.write, DialKind.code]
  | classLine =>
    simp only [SettingItem.range] at h
    have : v = 1 ∨ v = 2 := by omega
    rcases this with rfl | rfl <;> simp [Settings.read, Settings.write, Routing.code]
  | boundaryHour | civilOffset | holdoverLimit | lostLimit | armingLead | retention => rfl
  | linkLatency | silenceLimit | impulseWidth | gap | holdWindow | classPriority =>
    simp [Settings.read, Settings.write]

/-- A setting written leaves every other setting. -/
theorem Settings.read_write_ne (w : Settings) {i j : SettingItem} {n k : Nat} (v : Int) (hn : n ∈ i.numbers)
    (hk : k ∈ j.numbers) (h : (j, k) ≠ (i, n)) : (w.write i n v).read j k = w.read j k := by
  cases j <;> cases i <;> first
    | rfl
    | (have hnk : n ≠ k := fun e => h (by rw [e])
       simp only [Settings.read, Settings.write]
       first
        | rw [Vec.get_set_ne _ _ (index4_ne hn hk hnk)]
        | rw [Vec.get_set_ne _ _ (index21_ne hn hk hnk)])
    | (simp only [SettingItem.numbers, List.mem_singleton] at hn hk
       exact absurd (by rw [hn, hk]) h)

theorem SettingItem.clamp_inRange (i : SettingItem) (v : Int) : i.inRange (i.clamp v) = true := by
  rw [SettingItem.inRange_iff]
  simp only [SettingItem.clamp, clampInt]
  cases i <;> simp only [SettingItem.range] <;> omega

/-! ### What a hand-over leaves (Table 10-1) -/

variable {s : State}


@[simp] theorem State.handOver_sl (item : SettingItem) (n : Nat) : (s.handOver item n).sl = s.sl := by
  cases item <;> simp only [State.handOver, State.holdoverLimit, State.beginHoldoverExpired, State.announceFrom,
    State.silence, State.enterGap, State.disableLink, State.enableLink, State.lineEnableChanged, State.enableLine,
    State.disableLine, State.dialKindChanged, State.applyKind, State.changeKind, State.beginDialUnset, State.gapEnds,
    State.evaluateResting, State.evaluate, State.onLine, State.onLink, State.announceCivil] <;>
    (repeat' split) <;> simp

@[simp] theorem State.handOver_freeCount (item : SettingItem) (n : Nat) : (s.handOver item n).freeCount = s.freeCount := by
  cases item <;> simp only [State.handOver, State.holdoverLimit, State.beginHoldoverExpired, State.announceFrom,
    State.silence, State.enterGap, State.disableLink, State.enableLink, State.lineEnableChanged, State.enableLine,
    State.disableLine, State.dialKindChanged, State.applyKind, State.changeKind, State.beginDialUnset, State.gapEnds,
    State.evaluateResting, State.evaluate, State.onLine, State.onLink, State.announceCivil] <;>
    (repeat' split) <;> simp

@[simp] theorem State.handOver_settings (item : SettingItem) (n : Nat) : (s.handOver item n).settings = s.settings := by
  cases item <;> simp only [State.handOver, State.holdoverLimit, State.beginHoldoverExpired, State.announceFrom,
    State.silence, State.enterGap, State.disableLink, State.enableLink, State.lineEnableChanged, State.enableLine,
    State.disableLine, State.dialKindChanged, State.applyKind, State.changeKind, State.beginDialUnset, State.gapEnds,
    State.evaluateResting, State.evaluate, State.onLine, State.onLink, State.announceCivil] <;>
    (repeat' split) <;> simp

@[simp] theorem State.handOver_held (item : SettingItem) (n : Nat) : (s.handOver item n).held = s.held := by
  cases item <;> simp only [State.handOver, State.holdoverLimit, State.beginHoldoverExpired, State.announceFrom,
    State.silence, State.enterGap, State.disableLink, State.enableLink, State.lineEnableChanged, State.enableLine,
    State.disableLine, State.dialKindChanged, State.applyKind, State.changeKind, State.beginDialUnset, State.gapEnds,
    State.evaluateResting, State.evaluate, State.onLine, State.onLink, State.announceCivil] <;>
    (repeat' split) <;> simp

end Sys2Proof.Machine
end

