-- ==== Sys2Proof/Laws/TimeBase.lean ====
section
/-! SUPPORT. What a valid pulse does to the state: the discipline state's handling of it, and the announcements, the
condition and the ended causes that follow (R6 to R10, R13, R15, R22). -/

namespace Sys2Proof.Machine

theorem magnitude_eq (o : Int) : magnitude o = o.natAbs := rfl

theorem trimUpdate_eq (trim o : Int) : trimUpdate trim o = max (-50000) (min 50000 (trim - (o * 1000).tdiv 16)) := by
  simp only [trimUpdate, clampInt]
  split <;> (try split) <;> omega

/-! ### By the discipline state -/

section Pulse

variable {t : TimeBase} (o : Int) (ref : Nat)

theorem TimeBase.pulse_acquire (h : t.discipline = .acquire) : t.pulse o ref = t.acquirePulse o ref := by
  unfold TimeBase.pulse; split <;> simp_all

theorem TimeBase.pulse_locked (h : t.discipline = .locked) : t.pulse o ref =
    if magnitude o ≤ Config.stepThreshold then
      ({ t with residual := o, trim := trimUpdate t.trim o, outliers := 0 }, false)
    else if 3 ≤ t.outliers + 1 then
      ({ t.stepTo ref with discipline := .acquire, good := 0, outliers := 0 }, true)
    else ({ t with outliers := t.outliers + 1 }, false) := by
  unfold TimeBase.pulse; split <;> simp_all

theorem TimeBase.pulse_holdover (h : t.discipline = .holdover) : t.pulse o ref =
    { t with holdoverStart := none, discipline := .acquire, good := 0 }.acquirePulse o ref := by
  unfold TimeBase.pulse; split <;> simp_all

theorem TimeBase.pulse_drift (h : t.discipline = .drift) : t.pulse o ref =
    if t.rangeHold then ({ t with outliers := min 3 (t.outliers + 1) }, false)
    else if Config.stepThreshold < magnitude o then
      ({ t.stepTo ref with holdoverStart := none, discipline := .acquire, good := 0, outliers := 0 }, true)
    else
      ({ t with residual := o, holdoverStart := none, discipline := .acquire, good := 0, outliers := 0 }, false) := by
  unfold TimeBase.pulse; split <;> simp_all

end Pulse

/-! ### Announcements without a step -/

/-- A change that does not step is announced to both receivers exactly where it changes the quality (R13). -/
theorem State.announceFrom_still (s old : State) : s.announceFrom old false =
    s.withTimeBase s.tb (if s.tb.discipline.quality = old.tb.discipline.quality then []
      else [⟨s.tb.discipline.quality, s.tb.stationUs, none⟩]) := by
  unfold State.announceFrom
  by_cases h : s.tb.discipline.quality = old.tb.discipline.quality
  · rw [if_neg Bool.false_ne_true, if_pos (show s.quality = old.quality from h), if_pos h]
    simp only [State.withTimeBase, List.append_nil, List.map_nil]
  · rw [if_neg Bool.false_ne_true, if_neg (show ¬ s.quality = old.quality from h), if_neg h]
    rfl

/-! ### At the whole part -/

section Whole

variable {s : State} {x : TimeBase} {o : Int} {ref : Nat}

/-- The edge of a pulse whose held message is valid runs `validPulse` at the reference time. -/
theorem State.exec_refPpsEdge {m : RefMsg} (held : s.held = false) (message : s.tb.heldMsg = some m)
    (valid : m.valid = true) : exec .refPpsEdge s =
      .next ({ s with tb := s.tb.edge }.validPulse (m.day * 86400000000 + m.second * 1000000)).settle := by
  show (s.whenRunning _).answer = _
  rw [State.whenRunning_of _ held]
  simp only [State.ppsEdge, message, valid, if_true]
  rfl

/-- Both sustained causes of the Time Base end in ACQUIRE (R22). -/
theorem State.endReferenceCauses_eq : s.endReferenceCauses = { s with tb := { s.tb with
    conds := if s.tb.discipline = .acquire then (s.tb.conds.without .referenceLost).without .holdoverExpired
      else s.tb.conds } } := by
  unfold State.endReferenceCauses
  split
  · rw [State.endCause_timeBase, State.endCause_timeBase]
  · rfl

section Handled

variable {stepped : Bool} (offset : (s.tb.stationUs : Int) - ref = o)
  (pulse : ({ s.tb.edge with lastOffset := some o } : TimeBase).pulse o ref = (x, stepped))

include offset pulse

theorem State.validPulse_of : ({ s with tb := s.tb.edge } : State).validPulse ref =
    ((({ s with tb := x.afterPulse } : State).announceFrom { s with tb := s.tb.edge } stepped).raiseStepped stepped
      .reference).endReferenceCauses := by
  have taken : s.tb.edge.takePulse ref = (x.afterPulse, stepped) := by
    have same : (s.tb.edge.stationUs : Int) - ref = o := offset
    simp only [TimeBase.takePulse, same]
    rw [pulse]
  unfold State.validPulse
  rw [taken]

/-- A pulse that neither steps nor changes the quality announces nothing (R13). -/
theorem State.validPulse_quiet (still : stepped = false)
    (quality : x.discipline.quality = s.tb.discipline.quality) :
    ({ s with tb := s.tb.edge } : State).validPulse ref =
      s.withTimeBase { x.afterPulse with
        conds := if x.discipline = .acquire then (x.conds.without .referenceLost).without .holdoverExpired
          else x.conds } [] := by
  subst still
  rw [State.validPulse_of offset pulse]
  have unsent : ({ s with tb := x.afterPulse } : State).announceFrom { s with tb := s.tb.edge } false =
      { s with tb := x.afterPulse } := if_pos quality
  rw [unsent, State.endReferenceCauses_eq]
  simp only [State.raiseStepped, State.withTimeBase, List.append_nil, List.map_nil]
  rfl

/-- A pulse that changes the quality without a step announces the change once to each receiver (R13). -/
theorem State.validPulse_changes (still : stepped = false)
    (quality : x.discipline.quality ≠ s.tb.discipline.quality) :
    ({ s with tb := s.tb.edge } : State).validPulse ref =
      s.withTimeBase { x.afterPulse with
        conds := if x.discipline = .acquire then (x.conds.without .referenceLost).without .holdoverExpired
          else x.conds } [⟨x.discipline.quality, x.stationUs, none⟩] := by
  subst still
  rw [State.validPulse_of offset pulse]
  have sent : ({ s with tb := x.afterPulse } : State).announceFrom { s with tb := s.tb.edge } false =
      ({ s with tb := x.afterPulse } : State).announce none := if_neg quality
  rw [sent, State.endReferenceCauses_eq]
  rfl

/-- A pulse that steps announces the step once to each receiver and raises TIME_STEPPED (R13, R15, R22). -/
theorem State.validPulse_steps (moved : stepped = true) (acquire : x.discipline = .acquire)
    (recorded : x.lastStep = some (-o)) (target : x.stationUs = ref) :
    ({ s with tb := s.tb.edge } : State).validPulse ref =
      s.withTimeBase { x.afterPulse with
        conds := ((x.conds.raised .timeStepped ⟨ref / 1000, .holdover, .observed⟩ x.elapsed
          (.timeStepped (-o) .reference)).without .referenceLost).without .holdoverExpired }
        [⟨.holdover, ref, some ⟨s.tb.stationUs, ref, -o⟩⟩] := by
  subst moved
  rw [State.validPulse_of offset pulse]
  have step : (x.stationUs : Int) - s.tb.stationUs = -o := by rw [target]; omega
  rw [State.endReferenceCauses_eq]
  subst target
  simp only [State.announceFrom, State.announce, State.raiseStepped, State.raiseMomentary, State.setConds, State.condsOf,
    State.withTimeBase, TimeBase.afterPulse, TimeBase.edge, State.now, State.stationMs, State.quality, State.elapsed,
    Discipline.quality, acquire, recorded, step, if_true, List.map, Option.getD]

end Handled

end Whole

end Sys2Proof.Machine
end

