-- ==== Sys2Proof/Tests/Slice0.lean ====
section
/-! SUPPORT. The model's own tests: the checks of well-formedness, the manual's worked figures, one step at a time,
and for each statement a state and operands that meet its premises, at the ends of their ranges. -/

namespace Sys2Proof.Tests

open Sys2Proof Sys2Proof.Machine

set_option Elab.async false

/-! ### Small states -/

/-- A frame with the length its body has. -/
def fr (body : List Byte) : ReqFrame := ⟨⟨0x11, BitVec.ofNat 16 body.length, body⟩, .whole⟩

/-- A two-byte field. -/
def w (n : Nat) : List Byte := toBe 2 n

/-- The state a command leaves. -/
def after (c : Instr) (s : State) : State :=
  match exec c s with
  | .next t => t
  | .fault _ => s
  | .refused _ => s

/-- What a command answers: the status and body of the response then pending. -/
def answer (c : Instr) (s : State) : Option (Status × Body) :=
  match (after c s).sl.transaction with
  | .pending r => some (r.status, r.body)
  | .closed => none
  | .inWork _ _ => none

/-- The state with a transaction. -/
def opened (x : Transaction) (s : State) : State := { s with sl := { s.sl with transaction := x } }

def d0 : Date := ⟨0, .unsync, .observed⟩

/-- "1A01". -/
def h1 : Headcode := ⟨0x31, 0x41, 0x30, 0x31⟩

def aPoint : PointRec := ⟨.normal, some .normal, 6000, none, none, 0⟩

def aSignal : SignalRec := ⟨.stop, .stop, 3000, none, none⟩

def aBerth : BerthRec := ⟨.empty, true, []⟩

def pt (berth planned : Nat) (kind : PointKind) (route : Option RouteCheck) : TimingPoint :=
  ⟨⟨berth, kind, planned, 30, 60, 20, route⟩, none⟩

/-- A path of day 1 with two points, at 00:50:00 and 00:51:00; it is to be armed at 00:20:00. -/
def aPath : PathRec :=
  ⟨h1, 1, .loaded, 87600000, [pt 3 100 .pass none, pt 4 102 .arrive (some ⟨2, .normal⟩)], 0, 0, none, none, none, [],
    false, false⟩

/-- Four records on link 0 and one stored path. -/
def world : State := { State.reset with
  objects := [(1, ⟨0, d0, d0, none, [], .signal aSignal⟩), (2, ⟨0, d0, d0, none, [], .point aPoint⟩),
    (3, ⟨0, d0, d0, none, [], .berth aBerth⟩), (4, ⟨0, d0, d0, none, [], .berth aBerth⟩)]
  tc := { TimetableChecker.initial with paths := [(1, aPath)], poolFree := 16382 } }

/-- The same with another path in place of the stored one. -/
def worldWith (p : PathRec) : State := { world with tc := { world.tc with paths := [(1, p)] } }

/-- The Time Base in a discipline state, at a station time. -/
def timed (d : Discipline) (us : Nat) : State :=
  { world with tb := { TimeBase.initial with discipline := d, stationUs := us } }

/-- A pulse is about to be taken, with an offset in µs from 00:00:01 of day 1. -/
def pulsed (d : Discipline) (o : Int) (good outliers : Nat) : State :=
  { world with tb := { TimeBase.initial with
    discipline := d, stationUs := (86401000000 + o).toNat, good := good, outliers := outliers
    heldMsg := some ⟨1, 1, true⟩ } }

/-- A link with a queue. -/
def queued (q : List QueueEntry) : State := world.setLink 0 { Link.initial with queue := q }

def entry (n : Nat) (c : Content) : TelegramEntry := ⟨c, false, n, 5000, 5000, .locked, 0⟩

/-- A line enabled, its dial set. -/
def lined (st : LineState) : State :=
  { world with
    settings := { Settings.default with lineEnable := Vec.fill 4 true }
    sc := ⟨Vec.fill 4 ⟨true, .minute, .at 719 .positive, false, st, none, []⟩, []⟩ }

/-! ### Well-formedness refuses what is ill formed -/

theorem test_throw_limit_numbers : (Instr.throwLimitExpiry 0).wellFormed = false ∧
    (Instr.throwLimitExpiry 4096).wellFormed = false ∧ (Instr.throwLimitExpiry 1).wellFormed = true ∧
    (Instr.throwLimitExpiry 4095).wellFormed = true := by decide

theorem test_clear_limit_numbers : (Instr.clearLimitExpiry 0).wellFormed = false ∧
    (Instr.clearLimitExpiry 4096).wellFormed = false ∧ (Instr.clearLimitExpiry 1).wellFormed = true ∧
    (Instr.clearLimitExpiry 4095).wellFormed = true := by decide

/-- No row of the table has bits, so no word spells a command. -/
theorem test_no_word_decodes : decodeTableWord 8 0x5A = none ∧
    (State.reset.withFetchWord 8 0x5A) = State.reset := by decide +kernel

/-! ### The manual's figures -/

/-- Table 1-3. -/
theorem test_trim_figures : trimUpdate 400 3 = 213 ∧ trimUpdate 400 (-5) = 712 ∧ trimUpdate 49900 (-400) = 50000 ∧
    trimUpdate (-1000) 500000 = -50000 := by decide +kernel

/-- Table 1-6. -/
theorem test_civil_figures : civilOf Settings.default 37410000 = 44610000 ∧
    civilOf Settings.default 80000000 = 800000 ∧
    civilOf { Settings.default with civilOffset := -720 } 1000000 = 51400000 ∧
    civilOf { Settings.default with civilOffset := 60 } 37410000 = 48210000 := by decide +kernel

/-- Table 4-8. -/
theorem test_duration_figures :
    [0, 837, 1024, 1025, 3650, 6000, 6437, 8437, 30000, 131071, 200000].map
        (fun d => ((encodeDuration d true).exponent, (encodeDuration d true).mantissa,
          (encodeDuration d true).decoded)) =
      [(0, 0, 0), (0, 837, 837), (1, 512, 1024), (1, 512, 1024), (2, 912, 3648), (3, 750, 6000), (3, 804, 6432),
        (4, 527, 8432), (5, 937, 29984), (7, 1023, 130944), (7, 1023, 130944)] := by decide +kernel

/-- Table 7-4. -/
theorem test_target_figures : [27800000, 24200000, 71000000, 29999].map
    (fun ms => (DialKind.minute.target ms, DialKind.halfMinute.target ms)) =
      [(463, 926), (403, 806), (463, 926), (0, 0)] := by decide +kernel

/-- Table 6-2. -/
theorem test_deviation_figures : [198020, 999, 36000000].map (fun n => deviationOf n 0) = [198, 0, 32767] ∧
    [59900, 60999, 61000].map (fun n => deviationOf 0 n) = [-59, -60, -61] := by decide +kernel

/-- Table 2-3, with a link latency of 150 ms. -/
theorem test_dating_figures :
    (let s := fun us elapsed => ({ State.reset with
        tb := { TimeBase.initial with stationUs := us, elapsed := elapsed }
        settings := { Settings.default with linkLatency := Vec.fill 4 150 } } : State)
      let e := fun (s : State) age => (s.entryOf 0 ⟨none, 0x11, false, 1, age⟩ .berthCancel)
      [e (s ((812 * 86400000 + 37608400) * 1000) 91250400) 230, e (s ((813 * 86400000 + 100) * 1000) 137863100) 0,
          e (s 300000 300) 400].map (fun x => (x.ms, x.mark)) =
        [(812 * 86400000 + 37608020, 91250020), (812 * 86400000 + 86399950, 137862950), (0, 0)]) := by
  decide +kernel

/-- An empty store has the digest 0 (R107), the CRC-16 of R27 of "123456789" is 0x29B1, and the duration codes of 11.3
are sent as 0xC20F and 0xB324. -/
theorem test_check_figures : crc32Final 0xFFFFFFFF = 0 ∧
    (encodeDuration 8437 true).bytes = [0xC2, 0x0F] ∧ (encodeDuration 6437 true).bytes = [0xB3, 0x24] ∧
    crc16 [0x31, 0x32, 0x33, 0x34, 0x35, 0x36, 0x37, 0x38, 0x39] = 0x29B1 := by decide +kernel

/-- Codes outside Table 11-1 and 11.4 name nothing. -/
theorem test_codes_out_of_range : [0, 3].map Pos.ofCode = [none, none] ∧ [0, 4].map Detected.ofCode = [none, none] ∧
    [0, 6].map Aspect.ofCode = [none, none] ∧ [0, 3].map Requested.ofCode = [none, none] ∧
    [0, 4].map ObjectKind.ofCode = [none, none] ∧ [0, 7].map PathState.ofCode = [none, none] ∧
    [0, 4].map PointKind.ofCode = [none, none] ∧ [0x00, 0x04, 0x73, 0xFF].map ReqCode.named = [none, none, none, none] ∧
    [0, 22].map Machine.Class.ofCode = [none, none] := by decide +kernel

/-! ### The premises of the statements can be met: the machine and the requests -/

theorem test_premises_machine : ({ State.reset with pending := [.activation, .berthEvent] } : State).pending =
      .activation :: [.berthEvent] ∧
    ({ State.reset with pending := [.activation] } : State).pending.head? ≠ some .powerOn ∧
    (∃ t, step { State.reset with pending := [.activation] } = .next t) := ⟨rfl, by decide, _, rfl⟩

/-- An unread completion asserts ATTN_R: a sound state in which a line is asserted. -/
theorem test_premises_attention :
    (after .refMsgBadCharacter { world with sl := { ServiceLink.initial with
      slot := .done ⟨.digestPlan, 1, d0, d0, .ok, .digest 0 0 0 false, true⟩ } }).attnR = true ∧
    (after .refMsgBadCharacter world).attnR = false := by decide +kernel

theorem test_premises_invariants : world.settings.inRange = true ∧ world.queuesSound ∧
    world.tc.poolFree + world.tc.poolReserved + world.storedPoints = 16384 ∧
    (∀ e ∈ world.objects, 1 ≤ e.1 ∧ e.1 ≤ 4095) ∧ world.tc.paths.map (·.1) = [1] := by decide +kernel

/-- The Time Base's ranges hold after reset and at their ends, and fail one beyond. -/
theorem test_premises_time_base_ranges : State.reset.tb.inRange ∧
    (let t : TimeBase := { TimeBase.initial with
      trim := -50000, residual := 500000, good := 8, outliers := 3, stationUs := 5662310399999999
      fraction := 999999999, slewPhase := 999, oscPhase := 999, heldMsg := some ⟨65535, 86399, true⟩ }
    t.inRange ∧ ¬ { t with residual := -500001 }.inRange ∧ ¬ { t with stationUs := 5662310400000000 }.inRange ∧
      ¬ { t with heldMsg := some ⟨0, 86400, true⟩ }.inRange) := by
  simp [TimeBase.inRange, State.reset, TimeBase.initial]

theorem test_premises_stores : world.storesSound ∧ world.poolSound := by
  unfold State.storesSound State.poolSound State.repeatSound State.slotSound Store.Sorted
  refine ⟨by decide +kernel, by decide +kernel, by decide +kernel, rfl, nofun, nofun, nofun⟩

/-- A condition raised before another one of a later class stands first in the set, whichever was raised first; raised
again, it stays one. -/
theorem test_class_order : (let cs := [Machine.Class.pointUncommanded, .pointWrongDetection, .pointOverdue,
      .pointWrongDetection].foldl (fun cs c => CondSet.raised cs c d0 0 (.linkError .crc)) ([] : CondSet)
    List.map (·.cls) cs = [.pointOverdue, .pointWrongDetection, .pointUncommanded] ∧ cs.Ordered ∧
      (cs.acknowledged .pointWrongDetection).Ordered ∧ ¬ CondSet.Ordered (List.reverse cs)) := by decide +kernel

theorem test_premises_since : step { world with pending := [.activation] } = .next (after .activation world) ∧
    (world.object 2).isSome = true ∧ ((after .activation world).object 2).isSome = true := ⟨rfl, rfl, rfl⟩

/-- A wrong length, and a long request while one is in flight. -/
theorem test_premises_checks : world.held = false ∧ world.sl.transaction = .closed ∧ (fr [0]).phase = .whole ∧
    frameOk .setTime (collect (fr [0]).toFrame) = false ∧ frameOk .digestPlan (collect (fr []).toFrame) = true ∧
    isLong .digestPlan = true ∧
    answer (.setTime (fr [0])) world = some (.badRequest, .none) ∧
    answer (.digestPlan (fr [])) { world with sl := { ServiceLink.initial with slot := .inFlight .digestPlan 0 d0 } } =
      some (.busy, .none) := by decide +kernel

/-- A frame left in work: other frames are discarded, LOST_REQUEST is recorded, the part's own work serves it, and the
response carries the flag. A frame that meets a pending response is discarded too (Table 9-3). -/
theorem test_transaction : (let f := fr []
    let written := after (.getTime (f.at .write)) world
    let lost := after (.unknownRequestFrame (.short1 7 .whole)) (after (.armPath (fr (w 1))) written)
    let served := after (.getTime (f.at .service)) lost
    let work : InWork := .request .getTime (collect f.toFrame)
    let flag := fun s : State => match s.sl.transaction with
      | .pending r => some (r.status, r.lostRequest)
      | .closed => none
      | .inWork _ _ => none
    written.sl.transaction = .inWork work false ∧ written.sl.out = [0, 0, 0, 0] ∧ written.held = false ∧
      (f.at .service).phase = .service ∧ (f.at .write).phase = .write ∧
      lost.sl.transaction = .inWork work true ∧ lost.tc = world.tc ∧ lost.sl.out = [0] ∧
      lost.ownWork.head? = some (.getTime (f.at .service)) ∧
      after (.getTimeStatus (f.at .service)) lost = after (.unknownRequestFrame .emptyWrite) lost ∧
      flag served = some (.ok, true) ∧ served.sl.out = [0] ∧
      flag (after (.getTime f) (after (.getTime f) world)) = some (.ok, true) ∧
      flag (after (.unknownRequestFrame (.short3 1 2 3 .write)) (after (.getTime f) world)) = some (.ok, true) ∧
      (after (.getTime (f.at .write)) { world with held := true }).sl = world.sl) := by decide +kernel

/-- Of a body of 1,030 bytes the frame in work keeps 1,024 and the count; its service answers BAD_REQUEST. -/
theorem test_frame_kept : (let f := fr (List.replicate 1030 7)
    let written := after (.digestPlan (f.at .write)) world
    let kept : Collected := ⟨0x11, 1030, List.replicate 1024 7, 1030⟩
    written.sl.transaction = .inWork (.request .digestPlan kept) false ∧ written.sl.out = List.replicate 1034 0 ∧
      (match written.ownWork.head? with
        | some c => answer c written
        | none => none) = some (.badRequest, .none) ∧
      answer (.digestPlan f) world = some (.badRequest, .none)) := by decide +kernel

/-- A frame that names no request and is left in work is served as BAD_REQUEST. -/
theorem test_transaction_unnamed : (let s := after (.unknownRequestFrame (.short2 0x77 5 .write)) world
    s.sl.transaction = .inWork (.unnamed 0x77 5) false ∧
      s.ownWork.head? = some (.unknownRequestFrame (.short2 0x77 5 .service)) ∧
      (after (.unknownRequestFrame (.short2 0x77 5 .service)) s).sl.transaction =
        .pending ⟨0x77, 5, .badRequest, false, .none⟩) := by decide +kernel

/-- A frame of one or three header bytes and one of an unknown code are served as the unnamed frame in work; one of
another tag is not. -/
theorem test_service_unnamed : (let f : ReqFrame := { fr [] with tag := 0, phase := .service }
    let s := opened (.inWork (.unnamed 0x77 0) true) world
    [.short1 0x77 .service, .short3 0x77 0 9 .service, .unknownCode ⟨0x77, by decide⟩ f].map (fun x =>
      (after (.unknownRequestFrame x) s).sl.transaction) =
        List.replicate 3 (.pending ⟨0x77, 0, .badRequest, true, .none⟩) ∧
    (after (.unknownRequestFrame (.short3 0x77 1 9 .service)) s).sl.transaction = s.sl.transaction ∧ s.held = false) := by
  decide +kernel

theorem test_premises_latch : isChange .armPath = true ∧ world.admitsEdit .armPath (fr (w 9)) ∧
    ({ world with sl := { ServiceLink.initial with latch := some ⟨.order, .loadPath, 0, 1, none⟩ } } : State).admits
      .armPath (fr (w 9)) ∧
    (after (.amendObject (fr (w 2 ++ [4, 0, 0] ++ w 30001 ++ [0]))) world).sl.latch =
      some ⟨.outOfRange, .amendObject, 0x11, 2, none⟩ := by decide +kernel

/-- A read of the header alone leaves the response pending; a read of all of it closes the transaction. -/
theorem test_premises_read : (let r : Response := ⟨0x22, 0x11, .noSuch, true, .none⟩
    let s := opened (.pending r) world
    s.held = false ∧ (after (.readResponse 5) s).sl.transaction = .pending r ∧
      (after (.readResponse 6) s).sl.transaction = .closed ∧
      (after (.readResponse 7) s).sl.out = [0x22, 0x11, BitVec.ofNat 8 Status.noSuch.code, 1, 0, 0, 0] ∧
      (after (.readResponse 2) (opened (.inWork (.unnamed 7 0) false) world)).sl.out = [0, 0]) ∧
    world.sl.transaction = .closed := by decide +kernel

/-- The bytes of a status: its identity (11.2), and an absent completion and latch as zeros; a stale mark not set is
seven zero bytes behind its presence byte; a list stands behind its count. -/
theorem test_record_bytes : (match answer (.getStatus (fr [])) State.reset with
      | some (_, b) => some (b.bytes.take 5)
      | none => none) = some [0x4E, 0x48, 0x00, 0x28, 0x41] ∧
    (Body.latch none).bytes = List.replicate 8 0 ∧
    (Body.latch (some ⟨.order, .loadPath, 0x22, 258, some 3⟩)).bytes.length = 8 ∧
    staleBytes none = List.replicate 8 0 ∧ staleBytes (some ⟨258, .locked⟩) = [1, 0, 0, 0, 0, 1, 2, 0] ∧
    (Body.objects [] 0).bytes = [0, 0, 0] ∧
    (match answer (.findObjects (fr (w 1 ++ [0, 0, 0]))) world with
      | some (_, b) => some (b.bytes.length, b.bytes.take 4)
      | none => none) = some (1 + 4 * 33 + 2, [4, 0, 1, 1]) := by decide +kernel

/-- A slot in flight is as long as the completed one of its kind. -/
theorem test_slot_widths : [LongOp.repeatPath, .digestPlan, .saveSettings].map (fun k =>
      (Slot.inFlight k 0x11 d0).bytes.length) = [34, 42, 35] ∧
    [(⟨.repeatPath, 0x11, d0, d0, .ok, .copies 3, true⟩ : Completion),
      ⟨.digestPlan, 0x11, d0, d0, .ok, .digest 0 1 2 false, true⟩,
      ⟨.saveSettings, 0x11, d0, d0, .ok, .save 0, true⟩].map (fun c => (Slot.done c).bytes.length) = [34, 42, 35] ∧
    (Body.summary none).bytes = [] := by decide +kernel

theorem test_unknown_frame : (after (.unknownRequestFrame (.short1 0x01 .whole)) world).sl.transaction =
      .pending ⟨0x01, 0, .badRequest, false, .none⟩ ∧
    (after (.unknownRequestFrame (.unknownCode ⟨0xFF, rfl⟩ (fr []))) world).sl.transaction =
      .pending ⟨0xFF, 0x11, .badRequest, false, .none⟩ := by decide +kernel

theorem test_premises_readings : world.admits .getTime (fr []) ∧ world.admits .getTimeStatus (fr []) ∧
    world.admits .readSettings (fr []) ∧ world.admits .readLink (fr [3]) ∧ world.admits .readLink (fr [4]) ∧
    world.admits .readLine (fr [4]) ∧ (lined .idle).admits .readLine (fr [3]) ∧
    (lined (.impulse ⟨.positive, .counted, 0, 300, false⟩)).admits .readLine (fr [0]) ∧
    ((lined .idle).line 3).dial = .at 719 .positive ∧ 719 < ((lined .idle).line 3).kind.positions := by
  decide +kernel

/-! ### Station time -/

theorem test_premises_trimmed :
    (let t : TimeBase := { TimeBase.initial with trim := -50000 }
    t.residual = 0 ∧ t.rangeHold = false ∧ -50000 ≤ t.trim ∧ t.oscPhase < 1000 ∧
      (Nat.repeat TimeBase.tick 3 t).stationUs < Config.lastUs ∧
      (Nat.repeat TimeBase.tick 3 t).stationUs = 2 ∧ (Nat.repeat TimeBase.tick 3 t).fraction = 999850000) := by
  decide +kernel

/-- A positive residual takes one microsecond from the millisecond of trimmed time that completes, a negative one gives
one, and a residual of 0 neither; under the end-of-range hold only the elapsed count runs, by one for each millisecond. -/
theorem test_slew : [(0 : Nat), 1, 2, 3].map (fun k =>
      let t := Nat.repeat TimeBase.tick k { TimeBase.initial with residual := 5, slewPhase := 998 }
      (t.stationUs, t.residual, t.slewPhase)) = [(0, 5, 998), (1, 5, 999), (1, 4, 0), (2, 4, 1)] ∧
    [(-2 : Int), -1, 0].map (fun r =>
      let t := Nat.repeat TimeBase.tick 2 { TimeBase.initial with residual := r, slewPhase := 999 }
      (t.stationUs, t.residual)) = [(3, -1), (3, 0), (2, 0)] ∧
    (let t := Nat.repeat TimeBase.tick 9 { TimeBase.initial with rangeHold := true, residual := 3, oscPhase := 995 }
    (t.stationUs, t.residual, t.elapsed, t.oscPhase) = (0, 3, 1, 4)) := by decide +kernel

/-- An edge falls on any microsecond: 20 µs after the second that its message names the offset is +20, pulses 2 to 8 of
Table 1-4, and the residual takes it. -/
theorem test_capture : [(1, Discipline.acquire), (7, .locked)].map (fun x =>
      let s := { world with tb := Nat.repeat TimeBase.tick 20 { TimeBase.initial with
        discipline := .acquire, good := x.1, stationUs := 86401000000, heldMsg := some ⟨1, 1, true⟩ } }
      let t := (after .refPpsEdge s).tb
      (t.lastOffset, t.residual, t.good, t.discipline == x.2, t.elapsed, t.oscPhase)) =
    [(some 20, 20, 2, true, 0, 20), (some 20, 20, 8, true, 0, 20)] := by decide +kernel

theorem test_premises_pulse_free : (pulsed .free 0 0 0).held = false ∧ (pulsed .free 0 0 0).tb.rangeHold = false ∧
    (pulsed .free 0 0 0).tb.discipline = .free ∧ (pulsed .free 0 0 0).tb.heldMsg = some ⟨1, 1, true⟩ ∧
    world.tb.heldMsg = none ∧
    (after .refPpsEdge (pulsed .free 5 0 0)).tb.stationUs = 86401000000 := by decide +kernel

/-- Both sides of the lock band and of the step threshold. -/
theorem test_pulse_acquire : [(2000, 6), (-2000, 7), (2001, 7), (500000, 7), (500001, 7)].map (fun x =>
      let t := (after .refPpsEdge (pulsed .acquire x.1 x.2 0)).tb
      (t.discipline, t.good, t.residual, t.stationUs)) =
    [(.acquire, 7, 2000, 86401002000), (.locked, 8, -2000, 86400998000), (.acquire, 0, 2001, 86401002001),
      (.acquire, 0, 500000, 86401500000), (.acquire, 0, 0, 86401000000)] ∧
    ∀ o ∈ [2000, -2000, 2001, 500000, (500001 : Int)], (pulsed .acquire o 7 0).held = false ∧
      (pulsed .acquire o 7 0).tb.rangeHold = false ∧ (pulsed .acquire o 7 0).tb.heldMsg = some ⟨1, 1, true⟩ := by
  decide +kernel

theorem test_pulse_locked : [(500000, 2), (500001, 1), (500001, 2)].map (fun x =>
      let t := (after .refPpsEdge (pulsed .locked x.1 8 x.2)).tb
      (t.discipline, t.outliers, t.trim, t.residual)) =
    [(.locked, 0, -50000, 500000), (.locked, 2, 0, 0), (.acquire, 0, 0, 0)] ∧
    (pulsed .locked 500000 8 2).held = false ∧ (pulsed .locked 500000 8 2).tb.rangeHold = false := by decide +kernel

theorem test_pulse_holdover_drift : [(Discipline.holdover, (2000 : Int)), (.holdover, 2001), (.drift, 2000),
      (.drift, 500000), (.drift, 500001)].map (fun x =>
      let t := (after .refPpsEdge (pulsed x.1 x.2 0 0))
      (t.tb.discipline, t.tb.good, t.tb.residual, t.tc.announcements.length)) =
    [(.acquire, 1, 2000, 0), (.acquire, 0, 2001, 0), (.acquire, 0, 2000, 1), (.acquire, 0, 500000, 1),
      (.acquire, 0, 0, 1)] ∧
    (let s := { pulsed .drift 0 0 3 with tb := { (pulsed .drift 0 0 3).tb with rangeHold := true } }
    s.held = false ∧ s.tb.heldMsg = some ⟨1, 1, true⟩ ∧ (after .refPpsEdge s).tb.outliers = 3) := by decide +kernel

/-- A pulse that steps raises TIME_STEPPED and announces once to each receiver, in each state that may step. -/
theorem test_pulse_steps : ∀ d ∈ [Discipline.acquire, .locked, .holdover, .drift],
    let t := after .refPpsEdge (pulsed d 500001 0 2)
    t.tb.conds = [⟨.timeStepped, .clearUnack, ⟨86401000, .holdover, .observed⟩, t.tb.elapsed,
      .timeStepped (-500001) .reference, 1⟩] ∧
    t.sc.announcements = t.tc.announcements.map .time ∧
    t.tc.announcements = [⟨.holdover, 86401000000, some ⟨86401500001, 86401000000, -500001⟩⟩] := by decide +kernel

/-- Each timer at the moment it expires, and one before. -/
theorem test_time_base_timers :
    [2999999, 3000000].map (fun us => (after .referenceGapExpiry { timed .locked us with
      tb := { (timed .locked us).tb with gapStart := some 0 } }).tb.discipline) = [.locked, .holdover] ∧
    [14399999, 14400000].map (fun n => (after .holdoverLimitExpiry { timed .holdover 0 with
      tb := { (timed .holdover 0).tb with holdoverStart := some 0, elapsed := n } }).tb.discipline) =
        [.holdover, .drift] ∧
    [65536 * 86400000000 - 2, 65536 * 86400000000 - 1].map (fun us =>
      (after .endOfRangeHold (timed .locked us)).tb.rangeHold) = [false, true] ∧
    (timed .locked 0).held = false := by decide +kernel

/-- The end of range while RESTART_N is held: announced to both receivers at once, its causes not begun; taken up after the
release. -/
theorem test_end_of_range_held : (let us := 65536 * 86400000000 - 1
    let s := { timed .holdover us with held := true }
    let t := after .endOfRangeHold s
    let a : Announcement := ⟨.unsync, us, none⟩
    t.tb.rangeHold = true ∧ t.tb.discipline = .drift ∧ t.tb.conds = [] ∧ t.tc.announcements = [a] ∧
      t.sc.announcements = [.time a] ∧ (after .tcTakesTimeAnnouncement t).tc.announcements = [a] ∧
      (after .endOfRangeHold { s with tb := { s.tb with discipline := .drift } }).tc.announcements = [] ∧
      (after .tcTakesTimeAnnouncement (after .restartRelease t)).tc.service = .suspended) := by decide +kernel

theorem test_set_time : [(Discipline.free, 65535, 86399999), (.drift, 0, 0), (.acquire, 0, 0), (.locked, 0, 0),
      (.holdover, 0, 0), (.free, 0, 86400000)].map (fun x =>
      answer (.setTime (fr (toBe 2 x.2.1 ++ toBe 4 x.2.2))) (timed x.1 0)) =
    [some (.ok, .none), some (.ok, .none), some (.referenceInUse, .none), some (.referenceInUse, .none),
      some (.referenceInUse, .none), some (.outOfRange, .none)] ∧
    (timed .free 0).admits .setTime (fr (toBe 2 65535 ++ toBe 4 86399999)) := by decide +kernel

/-- Day 258, second 5, tracking: its check is the exclusive-OR; the window closes at 950 ms. -/
theorem test_reference_message :
    [49, 50, 950, 951].map (fun edge => (after (.refMsgComplete 5) { world with tb := { TimeBase.initial with
      elapsed := 1000, precedingEdge := some (1000 - edge)
      refRx := some ⟨[1, 2, 0, 0, 5, 1], 980⟩ } }).tb.heldMsg) = [none, none, none, none] ∧
    [49, 50, 950, 951].map (fun edge => (after (.refMsgComplete 7) { world with tb := { TimeBase.initial with
      elapsed := 1000, precedingEdge := some (1000 - edge)
      refRx := some ⟨[1, 2, 0, 0, 5, 1], 980⟩ } }).tb.heldMsg) =
        [none, some ⟨258, 5, true⟩, some ⟨258, 5, true⟩, none] := by decide +kernel

theorem test_premises_ref_characters : world.tb.refRx = none ∧
    (after (.refMsgCharacter 0x24) world).tb.refRx = some ⟨[], 0⟩ ∧
    (after (.refMsgCharacter 0x25) world).tb.refRx = none ∧
    [20, 21].map (fun n => (after .refMsgInterByteTimeout { world with tb := { TimeBase.initial with
      elapsed := n, refRx := some ⟨[1, 2, 3, 4, 5], 0⟩ } }).tb.refRx.isSome) = [true, false] ∧
    ((after (.refMsgCharacter 9) { world with tb := { TimeBase.initial with
      elapsed := 20, refRx := some ⟨[1, 2, 3, 4, 5], 0⟩ } }).tb.refRx.map (·.bytes)) = some [1, 2, 3, 4, 5, 9] := by
  decide +kernel

/-! ### Links -/

/-- The bytes of a telegram from its length byte on, with the check bytes that agree. -/
def telegram (covered : List Byte) : List Byte := covered ++ toBe 2 (crc16 covered).toNat

/-- POINT_IND of object 2, detected REVERSE. -/
def pointInd : List Byte := telegram [5, 0x12, 0, 0, 2, 2]

def heartbeat : List Byte := telegram [4, 0x0F, 0, 0, 0]

/-- A link that waits for the last byte of a telegram; the elapsed count stands at the mark of the byte before. -/
def receivingAll (bytes : List Byte) (l : Link) : State :=
  world.setLink 0 { l with framing := .receiving bytes.dropLast 0 }

def lastOf (bytes : List Byte) : Instr := .telegramReceived 0 (bytes.getLast?.getD 0)

/-- One telegram for each outcome of R27, in the order of its checks. -/
theorem test_telegram_checks :
    [telegram [5, 0x12, 0, 0, 2, 2], [5, 0x12, 0, 0, 2, 2, 0, 0], telegram [5, 0x99, 0, 0, 2, 2],
      telegram [5, 0x12, 0, 0, 2, 4], telegram [6, 0x12, 0, 0, 2, 2, 0], telegram [7, 0x12, 3, 0, 2, 2, 1, 44]].map
        (fun x => match checkTelegram x with
          | .ok t => (none, t.object, t.age, t.refresh)
          | .error e => (some e, 0, 0, false)) =
      [(none, 2, 0, false), (some .crc, 0, 0, false), (some .unknownKind, 0, 0, false), (some .unknownKind, 0, 0, false),
        (some .length, 0, 0, false), (none, 2, 300, true)] ∧
    crc16 [5, 0x12, 0, 0, 2, 2] = (BitVec.ofNat 8 (crc16 [5, 0x12, 0, 0, 2, 2] >>> 8).toNat ++
      BitVec.ofNat 8 (crc16 [5, 0x12, 0, 0, 2, 2]).toNat : BitVec 16) := by decide +kernel

/-- A heartbeat, and a telegram at a queue of 63 places taken, of 64, and with a marker pending. -/
theorem test_valid_telegrams :
    (after (lastOf heartbeat) (receivingAll heartbeat .initial)).links.val.map (·.state) = [.up, .quiet, .quiet, .quiet] ∧
    [63, 64].map (fun n =>
      let l := (after (lastOf pointInd) (receivingAll pointInd { Link.initial with
        queue := List.replicate n (.telegram (entry 2 (.pointInd .normal))), lastValid := some ⟨7, .locked⟩ })).link 0
      (l.queue.length, l.state, l.pendingMarker.map (·.start), l.capture.map (·.reason))) =
      [(64, .up, none, none), (64, .gap, some ⟨7, .locked⟩, some .queueFull)] ∧
    (let l := (after (lastOf pointInd) (receivingAll pointInd { Link.initial with
      pendingMarker := some ⟨⟨7, .locked⟩, .silence, 0⟩ })).link 0
    (l.queue, l.capture.map (·.reason)) = ([], some .queueFull)) ∧
    (receivingAll pointInd .initial).held = false ∧ (receivingAll pointInd .initial).settings.linkEnable.get 0 = true ∧
    pointInd.length = 5 + 3 := by decide +kernel

/-- Length bytes 3 and 13, a bad character, a late one, and a wrong check; a locked capture keeps the first fault. -/
theorem test_receiver_faults :
    [after (.lengthByteRejected 0 3) (receivingAll [0] .initial),
      after (.lengthByteRejected 0 13) (receivingAll [0] .initial),
      after (.linkBadCharacter 0) (receivingAll pointInd .initial),
      after (.linkInterByteTimeout 0) { receivingAll pointInd .initial with
        tb := { TimeBase.initial with elapsed := 21 } },
      after (.telegramReceived 0 0) (receivingAll (pointInd.dropLast ++ [0]) .initial)].map
        (fun t => (t.link 0).capture.map fun r => (r.reason, r.kind, r.object)) =
      [some (.length, none, none), some (.length, none, none), some (.framing, some 0x12, some 2),
        some (.framing, some 0x12, some 2), some (.crc, some 0x12, some 2)] ∧
    (after (.linkBadCharacter 0) (receivingAll pointInd { Link.initial with
      capture := some ⟨.crc, ⟨0, .unsync⟩, none, none, 0⟩ })).links.val.map (·.further) = [true, false, false, false] ∧
    (world.link 0).framing = .hunting ∧ pointInd.getLast? ≠ some 0 := by decide +kernel

theorem test_link_characters : [(Framing.hunting, (0x7E : Byte)), (.hunting, 0x7D), (.receiving [] 0, 4),
      (.receiving [] 0, 12), (.receiving [4] 0, 9), (.receiving [4, 1, 2, 3, 4] 0, 9)].map (fun x =>
      ((after (.linkCharacterReceived 0 x.2) (world.setLink 0 { Link.initial with framing := x.1 })).link 0).framing) =
    [.receiving [] 0, .hunting, .receiving [4] 0, .receiving [12] 0, .receiving [4, 9] 0,
      .receiving [4, 1, 2, 3, 4, 9] 0] ∧
    ({ Settings.default with linkEnable := Vec.fill 4 false }).linkEnable.get 0 = false := by decide +kernel

/-- The silence limit of 5 s, at its end and one before; with a full queue the marker waits. -/
theorem test_silence : [(5000, 63), (5000, 64), (4999, 0)].map (fun x =>
      let l := (after (.silenceExpiry 0) { world.setLink 0 { Link.initial with
        state := .up, silenceStart := some 0, lastValid := some ⟨3, .locked⟩
        queue := List.replicate x.2 (.telegram (entry 2 (.pointInd .normal))) } with
        tb := { TimeBase.initial with elapsed := x.1 } }).link 0
      (l.state, l.queue.length, l.pendingMarker.isSome)) =
    [(.gap, 64, false), (.gap, 64, true), (.up, 0, false)] := by decide +kernel

/-! ### The Object Table -/

theorem test_define_object : [(5, 1, 3, 1, 500), (4095, 1, 0, 1, 10000), (5, 2, 0, 1, 30000), (5, 3, 0, 1, 1), (5, 3, 0, 0, 9),
      (4096, 1, 0, 0, 0), (0, 1, 0, 0, 0), (5, 4, 0, 0, 0), (5, 1, 4, 0, 0), (5, 1, 0, 1, 499), (5, 1, 0, 1, 10001),
      (5, 2, 0, 1, 30001), (5, 3, 0, 1, 2), (1, 1, 0, 0, 0)].map (fun x =>
      (answer (.defineObject (fr (w x.1 ++ one x.2.1 ++ one x.2.2.1 ++ one x.2.2.2.1 ++ w x.2.2.2.2))) world).map (·.1)) =
    [some .ok, some .ok, some .ok, some .ok, some .ok, some .outOfRange, some .outOfRange, some .outOfRange,
      some .outOfRange, some .outOfRange, some .outOfRange, some .outOfRange, some .outOfRange, some .numberInUse] ∧
    world.admitsEdit .defineObject (fr (w 4095 ++ [1, 0, 1] ++ w 10000)) := by decide +kernel

/-- A body of AMEND OBJECT. -/
def amend (n mask kind link limit timing : Nat) : ReqFrame :=
  fr (w n ++ one mask ++ one kind ++ one link ++ w limit ++ one timing)

/-- The checks in order; parameters, link and kind changed together; equal values, and nothing, accepted. -/
theorem test_amend_object : [amend 2 4 0 0 500 0, amend 2 4 0 0 30000 0, amend 2 4 0 0 499 0, amend 1 4 0 0 10000 0,
      amend 1 4 0 0 10001 0, amend 3 8 0 0 0 1, amend 3 4 0 0 500 0, amend 2 8 0 0 0 0, amend 2 2 0 3 0 0,
      amend 2 2 0 0 0 0, amend 1 1 2 0 0 0, amend 2 1 3 0 0 0, amend 1 15 1 3 500 0, amend 1 7 2 3 30000 0,
      amend 4095 1 4 0 0 0, amend 2 2 0 4 0 0, amend 3 8 0 0 0 2, amend 0 0 0 0 0 0, amend 4096 0 0 0 0 0,
      amend 5 0 0 0 0 0, amend 2 0 0 0 0 0].map (fun f => (answer (.amendObject f) world).map (·.1)) =
    [some .ok, some .ok, some .outOfRange, some .ok, some .outOfRange, some .ok, some .outOfRange, some .outOfRange,
      some .inUse, some .ok, some .ok, some .inUse, some .outOfRange, some .ok, some .outOfRange, some .outOfRange,
      some .outOfRange, some .outOfRange, some .outOfRange, some .noSuch, some .ok] ∧
    (after (.amendObject (amend 1 7 2 3 30000 0)) world).object 1 =
      some ⟨3, d0, d0, none, [], .point ⟨.unknown, none, 30000, none, none, 0⟩⟩ ∧
    (after (.amendObject (amend 2 9 3 0 0 1)) { world with tc := .initial }).object 2 =
      some ⟨0, d0, d0, none, [], .berth ⟨.unknown, true, []⟩⟩ ∧
    (after (.amendObject (amend 2 1 1 0 0 0)) { world with tc := .initial }).object 2 =
      some ⟨0, d0, d0, none, [], .signal ⟨.unknown, .unknown, 3000, none, none⟩⟩ ∧
    (answer (.amendObject (amend 2 2 0 3 0 0)) { world with tc := .initial }).map (·.1) = some .ok ∧
    world.admitsEdit .amendObject (amend 2 4 0 0 500 0) ∧ (world.object 2).isSome = true ∧
    [fr (w 2), fr (w 1), fr (w 0), fr (w 4096), fr (w 4095)].map (fun f => answer (.retireObject f) world) =
      [some (.inUse, .none), some (.ok, .none), some (.outOfRange, .none), some (.outOfRange, .none),
        some (.noSuch, .none)] ∧
    world.admitsEdit .retireObject (fr (w 1)) := by decide +kernel

/-- A limit due and not yet expired: a new limit expires it within the command, an equal link alone does not (R46). -/
theorem test_amend_without_limit : (let early : State := { world with tc := .initial, tb := { TimeBase.initial with elapsed := 6000 } }
    let s := early.setObject 2
      ⟨0, d0, d0, none, [], .point { aPoint with movement := some ⟨.reverse, d0, 0, false, true⟩ }⟩
    [amend 2 0 0 0 0 0, amend 2 3 2 0 0 0, amend 2 4 0 0 6000 0].map (fun f =>
      ((after (.amendObject f) s).object 2).map (·.conds.map (·.cls))) = [some [], some [], some [.pointOverdue]] ∧
    s.objects.map (·.1) = [1, 2, 3, 4]) := by decide +kernel

/-- A berth retired, or made a signal and a berth again: the answers to its entries, given and owed, are dropped, and a
new berth of its number gets none of them (R80). -/
theorem test_answers_dropped : (let ev : BerthEvent := ⟨4, h1, .entry true, d0⟩
    let s := { world with tc := .initial, answers := [⟨4, h1, d0⟩, ⟨3, h1, d0⟩], berthEvents := [ev, { ev with berth := 3 }] }
    let again := after (.defineObject (fr (w 4 ++ [3, 0, 1] ++ w 1)))
      (after (.readResponse 6) (after (.retireObject (fr (w 4))) s))
    let back := after (.amendObject (amend 4 9 3 0 0 1))
      (after (.readResponse 6) (after (.amendObject (amend 4 1 1 0 0 0)) s))
    [again, back].map (fun t => (t.answers.map (·.berth), t.berthEvents.map (·.direction),
      ((after .unmatchedAnswer (after .berthEvent t)).object 4).map (·.conds.length))) =
      [([3], [.entry false, .entry true], some 0), ([3], [.entry false, .entry true], some 0)]) := by decide +kernel

/-- Each lookup with something stored, with nothing, and out of range. -/
theorem test_lookups : [.readObject (fr (w 2)), .readObject (fr (w 5)), .readObject (fr (w 0)), .readObject (fr (w 4096)),
      .findObjects (fr (w 1 ++ [3, 2, 1])), .findObjects (fr (w 1 ++ [4, 0, 0])), .readPath (fr (w 1 ++ [1])),
      .readPath (fr (w 1 ++ [2])), .readPath (fr (w 2 ++ [63])), .readPath (fr (w 1 ++ [64])),
      .findPaths (fr (w 1 ++ [6, 0, 0, 0, 0])), .findPaths (fr (w 1 ++ [7, 0, 0, 0, 0])),
      .readBerthQueue (fr (w 3 ++ w 2047)), .readBerthQueue (fr (w 2 ++ w 0)), .readBerthQueue (fr (w 3 ++ w 2048)),
      .readConditions (fr ([0] ++ w 0)), .readConditions (fr ([1] ++ w 3)), .readConditions (fr ([2] ++ w 4)),
      .readConditions (fr ([3] ++ w 4)), .readConditions (fr ([3] ++ w 5)), .readConditions (fr ([4] ++ w 1)),
      .readConditions (fr ([4] ++ w 2)), .readConditions (fr ([5] ++ w 0))].map (fun c => (answer c world).map (·.1)) =
    [some .ok, some .noSuch, some .outOfRange, some .outOfRange, some .ok, some .outOfRange, some .ok, some .outOfRange,
      some .noSuch, some .outOfRange, some .ok, some .outOfRange, some .ok, some .noSuch, some .outOfRange, some .ok,
      some .ok, some .outOfRange, some .ok, some .noSuch, some .ok, some .noSuch, some .outOfRange] ∧
    world.admits .readObject (fr (w 2)) ∧ world.admits .findPaths (fr (w 1 ++ [6, 0, 0, 0, 0])) ∧
    world.admits .readConditions (fr ([0] ++ w 0)) := by decide +kernel

/-! ### The Movement Dater -/

/-- A gap marker of link 0 makes its records stale, and not those of another link or those stale already. -/
theorem test_gap_marker : (let s := queued [.marker ⟨⟨7, .locked⟩, .silence, 0⟩]
    let s := (s.setObject 1 ⟨1, d0, d0, none, [], .signal aSignal⟩).setObject 3
      ⟨0, d0, d0, some ⟨2, .locked⟩, [], .berth aBerth⟩
    let s := { s with watch := s.watch.set 15 ⟨.object 2, false, none⟩ }
    let t := after (.takeGapMarker 0) s
    s.held = false ∧ (s.link 0).queue = [.marker ⟨⟨7, .locked⟩, .silence, 0⟩] ∧
      t.objects.map (fun e => e.2.stale.map (·.ms)) = [none, some 7, some 2, some 7] ∧
      (t.watch.get 15).changed = true ∧ (t.watch.get 0).changed = false ∧ (t.link 0).queue = []) := by decide +kernel

/-- Each check of an entry, for the object and for the from-berth. -/
theorem test_entry_checks : [entry 0 (.pointCmd .normal), entry 4096 (.pointCmd .normal), entry 5 (.pointCmd .normal),
      entry 1 (.pointCmd .normal), { entry 2 (.pointCmd .normal) with link := 1 }, entry 3 (.berthStep 4096 h1),
      entry 3 (.berthStep 5 h1), entry 3 (.berthStep 2 h1), entry 3 (.berthStep 4 h1)].map (fun e =>
      let t := after (.takeTelegramEntry 0) (queued [.telegram e])
      t.links.val.map fun l => l.capture.map (·.reason)) =
    [[some .unknownObject, none, none, none], [some .unknownObject, none, none, none],
      [some .unknownObject, none, none, none], [some .kindMismatch, none, none, none],
      [none, some .linkMismatch, none, none], [some .unknownObject, none, none, none],
      [some .unknownObject, none, none, none], [some .kindMismatch, none, none, none], [none, none, none, none]] ∧
    (after (.takeTelegramEntry 0) ((queued [.telegram (entry 3 (.berthStep 4 h1))]).setObject 4
      ⟨2, d0, d0, none, [], .berth aBerth⟩)).links.val.map (fun l => l.capture.map (·.reason)) =
        [some .linkMismatch, none, none, none] ∧
    (queued []).held = false := by decide +kernel

/-- The kind of record of an object after the one entry of link 0's queue. -/
def taken (n : Nat) (c : Content) (k : KindRec) : Option (KindRec × List (Machine.Class × CondState)) :=
  ((after (.takeTelegramEntry 0) ((queued [.telegram (entry n c)]).setObject n ⟨0, d0, d0, none, [], k⟩)).object n).map
    fun r => (r.kind, r.conds.map fun x => (x.cls, x.state))

def moving (q : Pos) : Option Movement := some ⟨q, ⟨5000, .locked, .observed⟩, 5000, false, true⟩

/-- No movement needed, one begun, one already under way, one reversed (Table 4-1). -/
theorem test_point_command : (queued []).settings.linkEnable.get 0 = true ∧
    taken 2 (.pointCmd .normal) (.point { aPoint with commanded := none }) = some (.point aPoint, []) ∧
    taken 2 (.pointCmd .reverse) (.point aPoint) =
      some (.point { aPoint with commanded := some .reverse, movement := moving .reverse }, []) ∧
    taken 2 (.pointCmd .reverse) (.point { aPoint with movement := moving .reverse }) =
      some (.point { aPoint with movement := moving .reverse }, []) ∧
    taken 2 (.pointCmd .normal) (.point { aPoint with movement := moving .reverse, detected := .none }) =
      some (.point { aPoint with detected := .none
                                 movement := (moving .normal).map fun m => { m with reversed := true } }, []) := by
  decide +kernel

/-- A completion, a wrong detection, a loss in a movement and without one, and an uncommanded change. -/
theorem test_point_indications : [(Detected.reverse, moving .reverse), (.normal, moving .reverse),
      (.none, moving .reverse), (.none, none), (.normal, none), (.reverse, none)].map (fun x =>
      (taken 2 (.pointInd x.1) (.point { aPoint with movement := x.2 })).map fun y => y.2) =
    [some [], some [(.pointWrongDetection, .clearUnack)], some [], some [(.pointLostDetection, .activeUnack)], some [],
      some [(.pointUncommanded, .clearUnack)]] ∧
    taken 2 (.pointInd .reverse) (.point { aPoint with movement := moving .reverse, detected := .none }) =
      some (.point { aPoint with detected := .reverse, count := 1, lastDuration := some ⟨0, 0, true⟩ }, []) := by
  decide +kernel

/-- The conditions and the slots after an indication at object 2, whose slot 5 watches it: a wrong detection that repeats
marks the slot though no position changes; an unacknowledged POINT_LOST_DETECTION ends in CLEAR_UNACK; a position already
proved marks none. -/
theorem test_point_conditions :
    (let s := fun (d : Detected) (p : PointRec) (cs : CondSet) =>
      after (.takeTelegramEntry 0) { (queued [.telegram (entry 2 (.pointInd d))]).setObject 2
          ⟨0, d0, d0, none, cs, .point p⟩ with watch := world.watch.set 5 ⟨.object 2, false, none⟩ }
    let seen := fun t : State => ((t.object 2).map fun r => List.map (fun x => (x.cls, x.state, x.count)) r.conds,
      t.watch.val.map (·.changed) == (List.range 16).map (· == 5))
    [s .normal { aPoint with movement := moving .reverse } [⟨.pointWrongDetection, .clearUnack, d0, 0,
        .pointWrongDetection .reverse .normal, 1⟩],
      s .normal { aPoint with detected := .none } [⟨.pointLostDetection, .activeUnack, d0, 0,
        .pointLostDetection .normal, 1⟩],
      s .normal aPoint []].map seen =
    [(some [(.pointWrongDetection, .clearUnack, 2)], true), (some [(.pointLostDetection, .clearUnack, 1)], true),
      (some [], false)]) := by decide +kernel

/-- The detail of SIGNAL_LAMP_FAULT is the aspect before, and a proceed aspect ends it and SIGNAL_SLOW_CLEAR. -/
theorem test_signal_conditions :
    (let s := fun (a : Aspect) (g : SignalRec) (cs : CondSet) =>
      ((after (.takeTelegramEntry 0) ((queued [.telegram (entry 1 (.signalInd a))]).setObject 1
        ⟨0, d0, d0, none, cs, .signal g⟩)).object 1).map fun r => List.map (fun x => (x.cls, x.state, x.detail)) r.conds
    s .dark { aSignal with aspect := .caution, requested := .off } [] =
      some [(.signalLampFault, .activeUnack, .signalLampFault .caution)] ∧
    s .caution { aSignal with aspect := .dark, requested := .off, clearing := some ⟨d0, 0, false⟩ }
      [⟨.signalSlowClear, .activeAck, d0, 0, .signalSlowClear d0, 1⟩,
        ⟨.signalLampFault, .activeUnack, d0, 0, .signalLampFault .stop, 1⟩] =
      some [(.signalLampFault, .clearUnack, .signalLampFault .stop)]) := by decide +kernel

/-- A clearing begun, none begun, one abandoned, one completed, a dark signal and an uncommanded proceed. -/
theorem test_signal_telegrams :
    taken 1 (.signalCmd .off) (.signal aSignal) = some (.signal { aSignal with
      requested := .off, clearing := some ⟨⟨5000, .locked, .observed⟩, 5000, true⟩ }, []) ∧
    taken 1 (.signalCmd .off) (.signal { aSignal with aspect := .caution }) =
      some (.signal { aSignal with aspect := .caution, requested := .off }, []) ∧
    taken 1 (.signalCmd .stop) (.signal { aSignal with requested := .off, clearing := some ⟨d0, 0, true⟩ }) =
      some (.signal aSignal, []) ∧
    taken 1 (.signalInd .caution) (.signal { aSignal with requested := .off, clearing := some ⟨d0, 0, true⟩ }) =
      some (.signal { aSignal with
        requested := .off, aspect := .caution, lastDuration := some (encodeDuration 5000 true) }, []) ∧
    (taken 1 (.signalInd .dark) (.signal aSignal)).map (·.2) = some [(.signalLampFault, .activeUnack)] ∧
    (taken 1 (.signalInd .restrict) (.signal aSignal)).map (·.2) = some [(.signalUncommanded, .clearUnack)] := by
  refine ⟨?_, ?_, ?_, ?_, ?_, ?_⟩ <;> decide +kernel

/-- The events of a step from berth 4 to berth 3, of a step to the same headcode, and of a cancel. -/
theorem test_berth_telegrams :
    (let from4 := (queued [.telegram (entry 3 (.berthStep 4 h1))]).setObject 4
      ⟨0, d0, d0, none, [], .berth ⟨.occupied h1, false, []⟩⟩
    (after (.takeTelegramEntry 0) from4).berthEvents.map (fun e => (e.berth, e.direction)) =
      [(4, .exit), (3, .entry true)]) ∧
    [Content.berthStep 0 h1, .berthStep 3 h1, .berthCancel].map (fun c =>
      (after (.takeTelegramEntry 0) ((queued [.telegram (entry 3 c)]).setObject 3
        ⟨0, d0, d0, none, [], .berth ⟨.occupied h1, false, []⟩⟩)).berthEvents.map (·.direction)) = [[], [], [.exit]] := by
  decide +kernel

/-- An UNPLANNED_TRAIN cause ends when the headcode it names exits, and not for another one; the slots of the two berths
are marked, and not that of a third object. -/
theorem test_unplanned_ends : [h1, ⟨0x32, 0x41, 0x30, 0x31⟩].map (fun named =>
      let c : Condition := ⟨.unplannedTrain, .activeUnack, d0, 0, .unplannedTrain named d0, 1⟩
      let s := ((queued [.telegram (entry 3 (.berthStep 4 h1))]).setObject 4
        ⟨0, d0, d0, none, [c], .berth ⟨.occupied h1, true, []⟩⟩)
      let slots := (s.watch.set 0 ⟨.object 4, false, none⟩).set 1 ⟨.object 3, false, none⟩
      let s := { s with watch := slots.set 2 ⟨.object 2, false, none⟩ }
      let t := after (.takeTelegramEntry 0) s
      ((t.object 4).map (·.conds.map (·.state)), t.watch.val.map (·.changed) |>.take 4)) =
    [(some [.clearUnack], [true, true, false, false]), (some [.activeUnack], [true, true, false, false])] := by
  decide +kernel

/-- Both limits at the moment they are reached, and one before. -/
theorem test_limit_expiries : [5999, 6000].map (fun n =>
      ((after (.throwLimitExpiry 2) ({ world with tb := { TimeBase.initial with elapsed := n } }.setObject 2
        ⟨0, d0, d0, none, [], .point { aPoint with movement := some ⟨.reverse, d0, 0, false, true⟩ }⟩)).object 2).map
          (·.conds.map (·.cls))) = [some [], some [.pointOverdue]] ∧
    [2999, 3000].map (fun n =>
      ((after (.clearLimitExpiry 1) ({ world with tb := { TimeBase.initial with elapsed := n } }.setObject 1
        ⟨0, d0, d0, none, [], .signal { aSignal with clearing := some ⟨d0, 0, true⟩ }⟩)).object 1).map
          (·.conds.map (·.cls))) = [some [], some [.signalSlowClear]] := by decide +kernel

/-- A train still there, one that has left, no record, and a record of another kind. -/
theorem test_unmatched_answers : [3, 4, 5, 2].map (fun n =>
      ((after .unmatchedAnswer ({ world with answers := [⟨n, h1, d0⟩] }.setObject 3
        ⟨0, d0, d0, none, [], .berth ⟨.occupied h1, true, []⟩⟩)).object n).map
          (·.conds.map fun c => (c.cls, c.state))) =
    [some [(.unplannedTrain, .activeUnack)], some [(.unplannedTrain, .clearUnack)], none, some []] := by decide +kernel

/-- An answer for an entry whose cause is active and acknowledged leaves the condition as it stands. -/
theorem test_answer_twice : (let held : CondSet := [⟨.unplannedTrain, .activeAck, d0, 7, .unplannedTrain h1 d0, 1⟩]
    let s := { world with answers := [⟨3, h1, d0⟩] }.setObject 3 ⟨0, d0, d0, none, held, .berth ⟨.occupied h1, true, []⟩⟩
    ((after .unmatchedAnswer s).object 3).map (·.conds) = some held ∧ s.held = false) := by decide +kernel

/-- An answer whose headcode has left begins and ends the cause from every state: present with this raise, its count 1
from an absent or acknowledged condition, else one more. -/
theorem test_answer_after_leaving : [none, some CondState.activeAck, some .activeUnack, some .clearUnack].map (fun st =>
      let held : CondSet := st.toList.map fun x => ⟨.unplannedTrain, x, d0, 7, .unplannedTrain h1 d0, 1⟩
      let s := { world with answers := [⟨3, h1, d0⟩], tb := { TimeBase.initial with elapsed := 9 } }.setObject 3
        ⟨0, d0, d0, none, held, .berth ⟨.empty, true, []⟩⟩
      ((after .unmatchedAnswer s).object 3).map (·.conds)) =
    [1, 1, 2, 2].map fun n => some [⟨.unplannedTrain, .clearUnack, d0, 9, .unplannedTrain h1 d0, n⟩] := by decide +kernel

/-- The entry's date is compared by its absolute station time, the quality and the kind apart. -/
theorem test_answer_dates : [d0, { d0 with quality := .locked }, { d0 with ms := 1 }].map (fun d =>
      ((after .unmatchedAnswer ({ world with answers := [⟨3, h1, d⟩] }.setObject 3
        ⟨0, d0, d0, none, [], .berth ⟨.occupied h1, true, []⟩⟩)).object 3).map (·.conds.map (·.state))) =
    [some [.activeUnack], some [.activeUnack], some [.clearUnack]] := by decide +kernel

/-! ### The Path Store -/

def planBytes (p : PathRec) : List Byte := p.points.flatMap fun x => x.plan.bytes

/-- A body of LOAD PATH for a path with the plan of another. -/
def load (n : Nat) (p : PathRec) : ReqFrame :=
  fr (w n ++ p.headcode.bytes ++ w p.day ++ one p.points.length ++ planBytes p)

/-- Stored; a taken number; a berth that is no berth; a falling order; a full pool; a suspended service loads only. -/
theorem test_load_path : world.admitsEdit .loadPath (load 2 aPath) ∧
    answer (.loadPath (load 2 aPath)) world = some (.ok, .pathState .loaded) ∧
    ((after (.loadPath (load 2 aPath)) world).path 2) = some aPath ∧
    (after (.loadPath (load 2 aPath)) world).tc.poolFree = 16380 ∧
    (after (.loadPath (load 1 aPath)) world).sl.latch.map (·.reason) = some .numberInUse ∧
    (after (.loadPath (load 2 { aPath with points := [pt 3 100 .pass none, pt 2 102 .pass none] })) world).sl.latch =
      some ⟨.badObject, .loadPath, 0x11, 2, some 1⟩ ∧
    (after (.loadPath (load 2 { aPath with points := [pt 3 102 .pass none, pt 4 100 .pass none] })) world).sl.latch =
      some ⟨.order, .loadPath, 0x11, 2, some 1⟩ ∧
    (after (.loadPath (load 2 aPath)) { world with tc := { world.tc with poolFree := 1 } }).sl.latch.map (·.reason) =
      some .poolFull ∧
    answer (.loadPath (load 2 aPath)) { world with
      tc := { world.tc with service := .serving }, tb := { TimeBase.initial with stationUs := 87600000000 } } =
        some (.ok, .pathState .armed) := by decide +kernel

/-- A path number 0, a count of 1 and of 65, an ill formed headcode; a planned time, a point kind and a half-given route
check of the second entry out of range. -/
theorem test_load_path_ranges : [(load 0 aPath, none), (load 2 { aPath with points := aPath.points.take 1 }, none),
      (load 2 { aPath with points := List.replicate 65 (pt 3 100 .pass none) }, none),
      (load 2 { aPath with headcode := ⟨0, 0, 0, 0⟩ }, none),
      (load 2 { aPath with points := [pt 3 100 .pass none, pt 3 3600 .pass none] }, some 1),
      (load 2 { aPath with points := [pt 0 100 .pass none, pt 3 3600 .pass none] }, some 0),
      (fr ((load 2 aPath).body.dropLast ++ [0]), some 1)].map (fun x => (after (.loadPath x.1) world).sl.latch.map fun l =>
        (l.reason, decide (l.index = x.2))) = List.replicate 7 (some (.outOfRange, true)) ∧
    world.admitsEdit .loadPath (load 0 aPath) ∧ world.admitsEdit .loadPath (fr ((load 2 aPath).body.dropLast ++ [0])) ∧
    (planOf (load 2 aPath).body 9).isSome = true ∧ planOf ((load 2 aPath).body.dropLast ++ [0]) 23 = none := by
  decide +kernel

/-- AMEND TIMING POINT of index 0 and of a protected one; SHIFT PATH to the ends of its range; COPY PATH. -/
theorem test_plan_edits : [((0 : Nat), PathState.loaded), (1, .loaded), (1, .running), (0, .complete)].map (fun x =>
      (answer (.amendTimingPoint (fr (w 1 ++ one x.1 ++ (pt 4 101 .pass none).plan.bytes)))
        (worldWith { aPath with state := x.2 })).map (·.1)) =
    [some .ok, some .ok, some .notWhileRunning, some .stateConflict] ∧
    [-100, -101, 720, 721].map (fun d => (answer (.shiftPath (fr (w 1 ++ toBeInt 2 d))) world).map (·.1)) =
      [some .ok, some .outOfRange, some .ok, some .outOfRange] ∧
    answer (.shiftPath (fr (w 1 ++ w 1))) (worldWith { aPath with templateInUse := true }) = some (.inUse, .none) ∧
    answer (.copyPath (fr (w 1 ++ w 2 ++ w 1 ++ h1.bytes))) world = some (.ok, .none) ∧
    world.admitsEdit .copyPath (fr (w 1 ++ w 2 ++ w 1 ++ h1.bytes)) ∧
    world.admitsEdit .shiftPath (fr (w 1 ++ w 1)) ∧
    world.admitsEdit .amendTimingPoint (fr (w 1 ++ one 0 ++ (pt 4 101 .pass none).plan.bytes)) ∧
    planOf (w 1 ++ one 0 ++ (pt 4 101 .pass none).plan.bytes) 3 = some (pt 4 101 .pass none).plan := by decide +kernel

/-- The refusals of AMEND TIMING POINT and COPY PATH, with the latched subject and index. -/
theorem test_plan_refusals : (let at0 := fun (n index : Nat) (x : TimingPoint) => fr (w n ++ one index ++ x.plan.bytes)
    let copy := fun (m : Nat) (d : Int) => fr (w 1 ++ w m ++ toBeInt 2 d ++ h1.bytes)
    let refusal := fun s : State => s.sl.latch.map fun l => (l.reason, l.subject, l.index)
    [at0 1 64 (pt 4 101 .pass none), at0 0 0 (pt 4 101 .pass none), at0 1 0 (pt 4 3600 .pass none),
      at0 1 0 (pt 2 100 .pass none), at0 1 0 (pt 3 103 .pass none), at0 1 1 (pt 3 99 .pass none),
      at0 1 2 (pt 3 102 .pass none)].map (fun f => refusal (after (.amendTimingPoint f) world)) =
      [some (.outOfRange, 1, some 64), some (.outOfRange, 0, some 0), some (.outOfRange, 1, some 0),
        some (.badObject, 1, some 0), some (.order, 1, some 0), some (.order, 1, some 1), some (.outOfRange, 1, some 2)] ∧
    [copy 0 0, copy 2 721, copy 1 0, copy 2 (-101)].map (fun f => refusal (after (.copyPath f) world)) =
      [some (.outOfRange, 1, none), some (.outOfRange, 1, none), some (.numberInUse, 1, none),
        some (.outOfRange, 1, none)] ∧
    refusal (after (.copyPath (copy 2 0)) { world with tc := { world.tc with poolFree := 1 } }) =
      some (.poolFull, 1, none) ∧
    refusal (after (.copyPath (copy 2 0)) { world with objects := [] }) = some (.badObject, 1, none)) := by decide +kernel

/-- With its activation time reached, an amended, a shifted and a copied path are armed in the same command. -/
theorem test_immediate_arming : (let s := { world with
      tc := { world.tc with service := .serving }, tb := { TimeBase.initial with stationUs := 87600000000 } }
    let state := fun (c : Instr) (n : Nat) => ((after c s).path n).map (·.state)
    state (.amendTimingPoint (fr (w 1 ++ one 0 ++ (pt 3 100 .pass none).plan.bytes))) 1 = some .armed ∧
    state (.amendTimingPoint (fr (w 1 ++ one 0 ++ (pt 3 101 .pass none).plan.bytes))) 1 = some .loaded ∧
    state (.shiftPath (fr (w 1 ++ w 0))) 1 = some .armed ∧ state (.shiftPath (fr (w 1 ++ w 1))) 1 = some .loaded ∧
    state (.copyPath (fr (w 1 ++ w 2 ++ w 0 ++ h1.bytes))) 2 = some .armed ∧
    state (.copyPath (fr (w 1 ++ w 2 ++ w 1 ++ h1.bytes))) 2 = some .loaded) := by decide +kernel

/-- A REPEAT PATH of two copies: its reservation, the first copy, and the last, which ends it. -/
theorem test_repeat_path : (let f := fr (w 1 ++ w 10 ++ one 2 ++ w 720 ++ one 99)
    let a := after (.repeatPath f) world
    let b := after .repeatCopyCreation a
    let c := after .repeatCopyCreation b
    world.admitsEdit .repeatPath f ∧ (a.tc.poolFree, a.tc.poolReserved) = (16378, 4) ∧
      a.tc.repeatOp = some ⟨1, 10, 2, 720, 99, 1⟩ ∧ b.tc.paths.map (·.1) = [1, 10] ∧ b.tc.poolReserved = 2 ∧
      c.tc.paths.map (fun e => (e.1, e.2.headcode.serial, e.2.templateInUse)) =
        [(1, some 1, false), (10, some 0, false), (11, some 99, false)] ∧
      c.tc.repeatOp = none ∧ c.sl.slot.busy = false) := by decide +kernel

/-- The refusals of REPEAT PATH in the order of its checks, with the number the latch holds. -/
theorem test_repeat_refusals :
    (let f := fun (n first count interval step : Nat) =>
      fr (w n ++ w first ++ one count ++ w interval ++ one step)
    let refusal := fun (s : State) (f : ReqFrame) => (after (.repeatPath f) s).sl.latch.map fun l => (l.reason, l.subject)
    [f 1 0 1 1 0, f 1 10 65 1 0, f 1 10 1 721 0, f 1 10 1 1 100, f 1 65535 2 1 0, f 1 1 1 1 0, f 1 10 5 720 0].map
      (refusal world) =
      [some (.outOfRange, 1), some (.outOfRange, 1), some (.outOfRange, 1), some (.outOfRange, 1), some (.outOfRange, 1),
        some (.numberInUse, 1), some (.outOfRange, 1)] ∧
    answer (.repeatPath (f 9 10 1 1 0)) world = some (.noSuch, .none) ∧
    refusal { world with objects := [] } (f 1 10 1 1 0) = some (.badObject, 1) ∧
    refusal (worldWith { aPath with headcode := ⟨0x31, 0x41, 0x30, 0x41⟩ }) (f 1 10 1 1 1) = some (.badHeadcode, 1) ∧
    refusal (worldWith { aPath with headcode := ⟨0x31, 0x41, 0x30, 0x41⟩ }) (f 1 10 1 1 0) = none ∧
    refusal { world with tc := { world.tc with poolFree := 1 } } (f 1 10 1 1 0) = some (.poolFull, 1) ∧
    world.admitsEdit .repeatPath (f 1 65535 1 720 99)) := by decide +kernel

/-- The last copy, armed at its creation, of a template marked for retirement: the template leaves, its entries return,
and its watch slot is emptied. -/
theorem test_repeat_end : (let s := { worldWith { aPath with templateInUse := true, retireMarked := true } with
      tc := { TimetableChecker.initial with
        paths := [(1, { aPath with templateInUse := true, retireMarked := true })], poolFree := 16380
        poolReserved := 2, service := .serving, repeatOp := some ⟨1, 10, 1, 1, 0, 1⟩ }
      tb := { TimeBase.initial with stationUs := 90000000000 }
      sl := { ServiceLink.initial with slot := .inFlight .repeatPath 5 d0 }
      watch := world.watch.set 3 ⟨.path 1, false, none⟩ }
    let t := after .repeatCopyCreation s
    t.tc.paths.map (fun e => (e.1, e.2.state)) = [(10, .armed)] ∧ (t.tc.poolFree, t.tc.poolReserved) = (16382, 0) ∧
      t.watch.get 3 = ⟨.none, true, some (.path 1)⟩ ∧ t.tc.repeatOp = none ∧ t.sl.slot.busy = false ∧
      s.held = false) := by decide +kernel

/-- The three requests on a path in each state, on a template, and on no path. -/
theorem test_queues : (let s := (((world.expect 3 ⟨1, 0⟩).expect 3 ⟨2, 1⟩).expect 4 ⟨1, 1⟩).expect 2 ⟨1, 2⟩
    let queues := fun s : State => [3, 4].map fun n => (s.object n).map fun r => match r.kind with
      | .berth b => b.queue
      | .point _ => []
      | .signal _ => []
    queues s = [some [⟨1, 0⟩, ⟨2, 1⟩], some [⟨1, 1⟩]] ∧ queues (s.disarm 1) = [some [⟨2, 1⟩], some []] ∧
      world.expect 9 ⟨1, 0⟩ = world ∧ s.object 2 = world.object 2) := by decide +kernel

theorem test_arm_cancel_retire : [PathState.loaded, .armed, .running, .complete].map (fun st =>
      ([Instr.armPath (fr (w 1)), .cancelPath (fr (w 1)), .retirePath (fr (w 1))].map fun c =>
        (answer c (worldWith { aPath with state := st })).map (·.1))) =
    [[some .ok, some .ok, some .ok], [some .stateConflict, some .ok, some .stateConflict],
      [some .stateConflict, some .ok, some .stateConflict], [some .stateConflict, some .stateConflict, some .ok]] ∧
    [Instr.cancelPath (fr (w 1)), .retirePath (fr (w 1))].map (fun c =>
      answer c (worldWith { aPath with templateInUse := true })) = [some (.inUse, .none), some (.inUse, .none)] ∧
    [Instr.armPath (fr (w 2)), .cancelPath (fr (w 2)), .retirePath (fr (w 2))].map (fun c => answer c world) =
      [some (.noSuch, .none), some (.noSuch, .none), some (.noSuch, .none)] ∧
    world.admitsEdit .armPath (fr (w 1)) ∧ world.admitsEdit .cancelPath (fr (w 1)) ∧
    world.admitsEdit .retirePath (fr (w 1)) := by decide +kernel

/-- A digest of nothing, and one of one path, whose walk takes it in one step. -/
theorem test_digest : world.admits .digestPlan (fr []) ∧
    (match (after (.digestPlan (fr [])) State.reset).sl.slot with
      | .done c => some c.result
      | .empty => none
      | .inFlight _ _ _ => none) = some (.digest 0 0 0 false) ∧
    (after (.digestPlan (fr [])) world).tc.digest = some ⟨0, 0xFFFFFFFF, 0, 0, false⟩ ∧
    (match (after .digestWalkStep (after (.digestPlan (fr [])) world)).sl.slot with
      | .done c => some c.result
      | .empty => none
      | .inFlight _ _ _ => none) = some (.digest (crc32Final (crc32Run 0xFFFFFFFF (digestBytes 1 aPath))) 1 2 false) := by
  decide +kernel

/-- A walk whose remaining paths were retired completes at its next step, with what it has counted. -/
theorem test_digest_retired : (let d : DigestWalk := ⟨1, 0x12345678, 1, 2, true⟩
    let s := { world with
      tc := { world.tc with digest := some d }, sl := { world.sl with slot := .inFlight .digestPlan 7 d0 } }
    s.held = false ∧ (∀ e ∈ s.tc.paths, e.1 ≤ 1) ∧ (after .digestWalkStep s).tc.digest = none ∧
    (match (after .digestWalkStep s).sl.slot with
      | .done c => some (c.tag, c.result)
      | .empty => none
      | .inFlight _ _ _ => none) = some (7, .digest (0x12345678 ^^^ 0xFFFFFFFF) 1 2 true)) := by decide +kernel

/-! ### Timetable checking -/

/-- A serving checker at a station time in ms. -/
def serving (ms : Nat) (p : PathRec) : State :=
  { worldWith p with
    tb := { TimeBase.initial with stationUs := ms * 1000 }
    tc := { (worldWith p).tc with service := .serving } }

/-- Each deadline at the ms it falls due, and one before. -/
theorem test_deadlines : [87599999, 87600000].map (fun ms =>
      ((after .activation (serving ms aPath)).path 1).map (·.state)) = [some .loaded, some .armed] ∧
    [99, 100].map (fun ms => ((after .overdueService (serving ms { aPath with
      state := .armed, deadline := some ⟨100, .overdue⟩ })).path 1).map (fun p => p.deadline.map (·.stage))) =
        [some (some .overdue), some (some .lost)] ∧
    [99, 100].map (fun ms => ((after .lostService (serving ms { aPath with
      state := .armed, deadline := some ⟨100, .lost⟩ })).path 1).map (·.state)) = [some .armed, some .lost] ∧
    [(99, false), (100, true), (100, false)].map (fun x => ((after .retireDeadlineExpiry (serving x.1 { aPath with
      state := .complete, templateInUse := x.2, deadline := some ⟨100, .retire⟩ })).path 1).map (·.retireMarked)) =
        [some false, some true, none] ∧ (serving 100 aPath).held = false := by decide +kernel

/-- Nothing is served while the service is SUSPENDED, nor by a service at another stage than the head entry's. -/
theorem test_services_not_due : (let due := fun st : Stage => serving 100 { aPath with
      state := .armed, deadline := some ⟨100, st⟩ }
    let suspended := fun s : State => { s with tc := { s.tc with service := .suspended } }
    let services := [(Instr.overdueService, Stage.overdue), (.lostService, .lost), (.retireDeadlineExpiry, .retire)]
    (after .activation (suspended (serving 87600000 aPath))).tc = (suspended (serving 87600000 aPath)).tc ∧
    ∀ c ∈ services, ∀ d ∈ services,
      (after c.1 (suspended (due d.2))).tc = (suspended (due d.2)).tc ∧
      (c.2 ≠ d.2 → (after c.1 (due d.2)).tc = (due d.2).tc)) := by decide +kernel

/-- An armed path's berths: the head of the day, 120 s late at point 0; then point 1 first, which skips point 0. -/
def expecting (n k planned : Nat) (ms : Nat) (d : Direction) : State :=
  let s := (serving 0 { aPath with state := .armed }).setObject n ⟨0, d0, d0, none, [], .berth ⟨.empty, true, [⟨1, k⟩]⟩⟩
  { s with berthEvents := [⟨n, h1, d, ⟨86400000 + planned * 30000 + ms, .locked, .observed⟩⟩] }

theorem test_berth_events : [expecting 3 0 100 60000 (.entry true), expecting 3 0 100 61000 (.entry true),
      expecting 4 1 102 0 (.entry true), expecting 3 0 100 0 .exit].map (fun s =>
      ((after .berthEvent s).path 1).map fun p =>
        (p.state, p.passed, p.points.map fun x => x.outcome.map (·.outcome))) =
    [some (.running, 1, [some .onTime, none]), some (.running, 1, [some .late, none]),
      some (.complete, 2, [some .skipped, some .onTime]), some (.armed, 0, [none, none])] ∧
    (after .berthEvent ({ world with berthEvents := [⟨3, h1, .entry true, d0⟩] })).answers.length = 1 := by
  decide +kernel

/-- An overdue path at a station time, its cause in a state, with the event that passes point 0 on time. -/
def overdueAt (ms : Nat) (st : CondState) : State :=
  let s := expecting 3 0 100 0 (.entry true)
  (s.setPath 1 { aPath with
    state := .armed, deadline := some ⟨95000000, .lost⟩
    conds := [⟨.pathOverdue, st, d0, 0, .pathOverdue 0 0, 1⟩] }) |> fun t =>
      { t with tb := { t.tb with stationUs := ms * 1000 } }

/-- The deadline and the conditions of path 1 after a command. -/
def overdueAfter (c : Instr) (s : State) : Option (Option Deadline × List (Machine.Class × CondState × Detail)) :=
  ((after c s).path 1).map fun p => (p.deadline, p.conds.map fun x => (x.cls, x.state, x.detail))

/-- Overdue again for a point projected at a time, with an hour to the LOST stage. -/
def overdueAgain (k : Nat) (t : Int) : Option (Option Deadline × List (Machine.Class × CondState × Detail)) :=
  some (some ⟨t + 3600000, .lost⟩, [(.pathOverdue, .activeUnack, .pathOverdue k t)])

/-- The same path with the service SUSPENDED. -/
def overdueSuspended : State :=
  let s := overdueAt 89520000 .activeAck
  { s with tc := { s.tc with service := .suspended } }

/-- The pass ends PATH_OVERDUE; at the ms the new deadline is due, and not one before, it begins again in the same event.
With no cause active, or in SUSPENDED, the deadline waits. -/
theorem test_overdue_recurs : [overdueAt 89520000 .activeAck, overdueAt 89520000 .activeUnack,
      overdueAt 89519999 .activeAck, overdueAt 89520000 .clearUnack, overdueSuspended].map (overdueAfter .berthEvent) =
    [overdueAgain 1 89460000, overdueAgain 1 89460000, some (some ⟨89520000, .overdue⟩, []),
      some (some ⟨89520000, .overdue⟩, [(.pathOverdue, .clearUnack, .pathOverdue 0 0)]),
      some (some ⟨89520000, .overdue⟩, [])] ∧ (overdueAt 89520000 .activeAck).held = false := by decide +kernel

/-- So at a shift. -/
theorem test_overdue_shifted : [overdueAt 89460000 .activeAck, overdueAt 89459999 .activeAck].map
      (overdueAfter (.shiftPath (fr (w 1 ++ w 0)))) =
    [overdueAgain 0 89400000, some (some ⟨89460000, .overdue⟩, [])] ∧
    (overdueAt 89460000 .activeAck).admitsEdit .shiftPath (fr (w 1 ++ w 0)) :=
  ⟨by decide +kernel, by decide +kernel⟩

/-! ### The slave clock lines -/

/-- Civil 02:00:00 with the target 120 on a MINUTE dial at 719: 121 behind, so a counted impulse of the other
polarity starts; a dial 60 ahead holds, one 61 ahead does not. -/
def valid (st : LineState) (position : Nat) : State :=
  { lined st with
    tb := { TimeBase.initial with timeValid := true }
    sc := ⟨Vec.fill 4 ⟨true, .minute, .at position .positive, false, st, none, []⟩, []⟩ }

theorem test_evaluation : [719, 120, 121, 180, 181].map (fun n =>
      ((after .dialTargetChange (valid .idle n)).line 0).state) =
    [.impulse ⟨.negative, .counted, 0, 300, false⟩, .idle, .wait .holdWindow, .wait .holdWindow,
      .impulse ⟨.negative, .counted, 0, 300, false⟩] ∧
    ((after .dialTargetChange (lined .idle)).line 0).state = .wait .timeNotValid ∧
    ((after .dialTargetChange (valid (.fault 5) 719)).line 0).state = .fault 5 ∧
    (lined .idle).held = false ∧ ((lined .idle).line 0).dial = .at 719 .positive := by decide +kernel

/-- Each receiver takes its announcement. -/
theorem test_announcements : [Quality.locked, .holdover, .unsync].map (fun q =>
      (after .tcTakesTimeAnnouncement { world with tc := { world.tc with
        announcements := [⟨q, 0, none⟩] } }).tc.service) = [.serving, .serving, .suspended] ∧
    ((after .scTakesTimeAnnouncement { valid .idle 719 with sc := { (valid .idle 719).sc with
      announcements := [.civil 0] } }).sc.announcements) = [] := by decide +kernel

/-- The states of line 0 and its conditions after a command at an elapsed count. -/
def lineAt (st : LineState) (elapsed : Nat) (c : Instr) : LineState × List (Machine.Class × CondState) × Dial :=
  let l := (after c { valid st 719 with tb := { TimeBase.initial with timeValid := true, elapsed := elapsed } }).line 0
  (l.state, l.conds.map fun x => (x.cls, x.state), l.dial)

/-- The sense at half the width and one before; the completion at the width and one before. -/
theorem test_impulse : (let i := fun sensed => LineState.impulse ⟨.negative, .counted, 0, 300, sensed⟩
    lineAt (i false) 149 (.impulseSense 0 .normal) = (i false, [], .at 719 .positive) ∧
    lineAt (i false) 150 (.impulseSense 0 .normal) = (i true, [], .at 719 .positive) ∧
    lineAt (i false) 150 (.impulseSense 0 .opened) =
      (.fault 60150, [(.lineFault, .activeUnack)], .at 719 .positive) ∧
    lineAt (i true) 299 (.impulseCompletion 0) = (i true, [], .at 719 .positive) ∧
    lineAt (i true) 300 (.impulseCompletion 0) = (.gap 300, [], .at 0 .negative) ∧
    lineAt (.impulse ⟨.positive, .resolving, 0, 300, true⟩) 300 (.impulseCompletion 0) =
      (.gap 300, [], .at 719 .positive)) := by
  refine ⟨?_, ?_, ?_, ?_, ?_, ?_⟩ <;> decide +kernel

/-- LINE_FAULT with the detail of the cut; a further cut makes no new raise; a deferred kind change is applied. -/
theorem test_impulse_conditions : (let st : LineState := .impulse ⟨.negative, .counted, 0, 300, false⟩
    let cut := fun (cs : CondSet) (kind : DialKind) => (after (.impulseSense 0 .short)
      ({ valid st 719 with
        tb := { TimeBase.initial with elapsed := 150 }
        settings := { Settings.default with lineEnable := Vec.fill 4 true, dialKind := Vec.fill 4 kind } }.setLine 0
          ⟨true, .minute, .at 719 .positive, false, st, none, cs⟩)).line 0
    let held : CondSet := [⟨.lineFault, .activeAck, d0, 7, .lineFault .opened .positive .counted 3, 1⟩]
    (cut [] .minute).conds = [⟨.lineFault, .activeUnack, d0, 150, .lineFault .short .negative .counted 719, 1⟩] ∧
    (cut held .minute).conds = held ∧ (cut [] .minute).state = .fault 60150 ∧
    (cut held .halfMinute).conds = [⟨.dialUnset, .activeUnack, d0, 150, .dialUnset .halfMinute .kindChange, 1⟩] ∧
    (cut held .halfMinute).state = .unset) := by decide +kernel

/-- The gap of 700 ms and the retry mark, each at its end and one before. -/
theorem test_gap_and_retry : (lineAt (.gap 0) 699 (.gapEnd 0)).1 = .gap 0 ∧
    (lineAt (.gap 0) 700 (.gapEnd 0)).1 = .impulse ⟨.negative, .counted, 700, 300, false⟩ ∧
    (lineAt (.fault 60150) 60149 (.faultRetryExpiry 0)).1 = .fault 60150 ∧
    (lineAt (.fault 60150) 60150 (.faultRetryExpiry 0)).1 = .impulse ⟨.negative, .counted, 60150, 300, false⟩ ∧
    ((after (.faultRetryExpiry 0) { lined (.fault 0) with tb := .initial }).line 0).state = .fault 60000 := by
  decide +kernel

/-- A body of DIAL SET. -/
def dial (i position given : Nat) : ReqFrame := fr (one i ++ w position ++ one given)

theorem test_dial_set : [dial 4 0 0, dial 0 720 0, dial 0 719 3, dial 0 719 0, dial 0 719 2].map (fun f =>
      (answer (.dialSet f) (lined .idle)).map (·.1)) =
    [some .outOfRange, some .outOfRange, some .outOfRange, some .ok, some .ok] ∧
    answer (.dialSet (dial 3 0 1)) (lined (.impulse ⟨.positive, .counted, 0, 300, false⟩)) = some (.lineBusy, .none) ∧
    answer (.dialSet (dial 3 0 0)) ((lined .unset).setLine 3 ⟨true, .minute, .unknown, false, .unset, none, []⟩) =
      some (.outOfRange, .none) ∧
    [LineState.unset, .wait .holdWindow, .off, .gap 0, .fault 9].map (fun st =>
      ((after (.dialSet (dial 3 0 2)) (lined st)).line 3).state) =
        [.wait .timeNotValid, .wait .timeNotValid, .off, .gap 0, .fault 9] ∧
    ((after (.dialSet (dial 3 0 2)) (lined .idle)).line 3).dial = .at 0 .negative ∧
    (lined .idle).admits .dialSet (dial 3 719 2) := by decide +kernel

/-- A link disabled in UP: the DISABLED marker takes the tail, or waits at a full queue. -/
theorem test_disable_up : [63, 64].map (fun n =>
      let s := { world with settings := { Settings.default with linkEnable := Vec.fill 4 false } }.setLink 0
        { Link.initial with
          state := .up, silenceStart := some 0, lastValid := some ⟨3, .locked⟩
          queue := List.replicate n (.telegram (entry 2 (.pointInd .normal))) }
      let l := (s.handOver .linkEnable 0).link 0
      (l.state, l.queue.length, l.queue.getLast?, l.pendingMarker, l.conds.length)) =
    [(.quiet, 64, some (.marker ⟨⟨3, .locked⟩, .disabled, 0⟩), none, 0),
      (.quiet, 64, some (.telegram (entry 2 (.pointInd .normal))), some ⟨⟨3, .locked⟩, .disabled, 0⟩, 0)] := by
  decide +kernel

/-- Each changed setting of a line reaches it, or waits for the end of its impulse. -/
theorem test_hand_over : (let off := fun s : State => { s with
      settings := { s.settings with lineEnable := Vec.fill 4 false } }
    let half := fun s : State => { s with settings := { s.settings with dialKind := Vec.fill 4 .halfMinute } }
    let i := LineState.impulse ⟨.positive, .counted, 0, 300, true⟩
    (((off (lined .idle)).handOver .lineEnable 0).line 0).state = .off ∧
    (((off (lined i)).handOver .lineEnable 0).line 0).state = i ∧
    (((half (lined .idle)).handOver .dialKind 0).line 0).dial = .unset .positive ∧
    (((half (lined i)).handOver .dialKind 0).line 0).kind = .minute ∧
    (lineAt i 300 (.impulseCompletion 0)).1 = .gap 300 ∧
    ((after (.impulseCompletion 0) { off (lined i) with tb := { TimeBase.initial with elapsed := 300 } }).line 0).state =
      .off ∧
    (((lined .idle).handOver .boundaryHour 0).sc.announcements) = [.civil 7200000]) := by decide +kernel

/-! ### Conditions -/

def cond (c : Machine.Class) (st : CondState) (count : Nat) : Condition :=
  ⟨c, st, d0, 0, .linkError .crc, count⟩

/-- Table 8-1a: what begins, ends, is raised and is acknowledged, from each state, with a count of 255. -/
theorem test_transitions : [[], [cond .linkGap .activeUnack 255], [cond .linkGap .activeAck 255],
      [cond .linkGap .clearUnack 255]].map (fun cs : CondSet =>
      [cs.begun .linkGap d0 9 (.linkError .crc), cs.ended .linkGap, cs.acknowledged .linkGap].map
        fun x => (x.find .linkGap).map fun c => (c.state, c.count)) =
    [[some (.activeUnack, 1), none, none],
      [some (.activeUnack, 255), some (.clearUnack, 255), some (.activeAck, 255)],
      [some (.activeUnack, 1), none, some (.activeAck, 255)],
      [some (.activeUnack, 255), some (.clearUnack, 255), none]] := by decide +kernel

/-- A cause begins, begins again and ends at every standing subject. -/
theorem test_reports : [Subject.timeBase, .link 3, .line 3, .object 2, .path 1].map (fun x =>
      let s := world.beginCause x .linkGap (.linkError .crc)
      (s.condsOf x, (s.beginCause x .linkGap (.linkError .length)).condsOf x, (s.endCause x .linkGap).condsOf x)) =
    List.replicate 5 ([cond .linkGap .activeUnack 1], [cond .linkGap .activeUnack 1], [cond .linkGap .clearUnack 1]) := by
  decide +kernel

/-- Two conditions of one priority: the earlier mark is given; with ACKNOWLEDGE it is acknowledged. -/
def raised2 : State := { world with tb := { TimeBase.initial with conds :=
    [⟨.timeStepped, .clearUnack, d0, 5, .timeStepped 0 .setTime, 1⟩] } }.setObject 2
  ⟨0, d0, d0, none, [⟨.pointOverdue, .activeUnack, d0, 6, .pointOverdue .normal d0 false, 1⟩], .point aPoint⟩

theorem test_next_condition : answer (.nextCondition (fr [0])) world = some (.noSuch, .none) ∧
    raised2.admits .nextCondition (fr [0]) ∧
    raised2.conditions.map (fun x => (x.1, x.2.cls)) = [(.timeBase, .timeStepped), (.object 2, .pointOverdue)] ∧
    ((after (.nextCondition (fr [1])) raised2).object 2).map (·.conds.map (·.state)) = some [.activeAck] ∧
    (raised2.condsOf (.object 2)).find .pointOverdue =
      some ⟨.pointOverdue, .activeUnack, d0, 6, .pointOverdue .normal d0 false, 1⟩ := by decide +kernel

/-- A body of ACK CONDITION. -/
def ack (kind n code given mark : Nat) : ReqFrame := fr (one kind ++ w n ++ one code ++ one given ++ toBe 6 mark)

/-- Acknowledged; another mark; another class; a subject with none; a class that is not of the subject; no subject. -/
theorem test_ack_condition : (let code := Machine.Class.pointOverdue.order + 1
    [ack 3 2 code 1 6, ack 3 2 code 1 7, ack 3 2 (code + 1) 0 0, ack 3 3 code 0 0, ack 0 0 code 0 0, ack 3 4095 code 0 0,
      ack 3 4096 code 0 0, ack 5 0 code 0 0, ack 3 2 22 0 0].map (fun f => (answer (.ackCondition f) raised2).map (·.1)) =
      [some .ok, some .noSuch, some .noSuch, some .noSuch, some .outOfRange, some .noSuch, some .outOfRange,
        some .outOfRange, some .outOfRange] ∧
    Machine.Class.ofCode code = some .pointOverdue ∧ Machine.Class.pointOverdue.subjectCode = 3 ∧
    raised2.admits .ackCondition (ack 3 2 code 1 6)) := by decide +kernel

/-! ### The Service Link, the settings and the resets -/

theorem test_set_watch : [fr ([15, 0] ++ w 0), fr ([16, 0] ++ w 0), fr ([0, 3] ++ w 2), fr ([0, 3] ++ w 4095),
      fr ([0, 3] ++ w 4096), fr ([0, 4] ++ w 1), fr ([0, 4] ++ w 0), fr ([0, 4] ++ w 2), fr ([0, 1] ++ w 0)].map (fun f =>
      (answer (.setWatch f) world).map (·.1)) =
    [some .ok, some .outOfRange, some .ok, some .noSuch, some .outOfRange, some .ok, some .outOfRange, some .noSuch,
      some .outOfRange] ∧
    ((after (.readWatch (fr [])) (after (.readResponse 64) (after (.setWatch (fr ([0, 3] ++ w 2))) world))).watch.get 0) =
      ⟨.object 2, false, none⟩ ∧
    (after (.setWatch (fr ([0, 3] ++ w 2))) world).watch.get 0 = ⟨.object 2, true, none⟩ ∧
    world.admits .setWatch (fr ([15, 0] ++ w 0)) ∧ world.admits .readWatch (fr []) := by decide +kernel

/-- A watch slot that READ WATCH clears. -/
theorem test_read_watch : ((after (.readWatch (fr [])) { world with
      watch := world.watch.set 15 ⟨.object 2, true, some (.path 9)⟩ }).watch.get 15) = ⟨.object 2, false, none⟩ := by
  decide +kernel

/-- READ WATCH left in work takes one slot a service: the first takes slot 0 and asks slot 1; a report then marks slot 0
again, which the last slot's event leaves, and the response stands. -/
theorem test_watch_in_turn : (let f := (fr []).at .service
    let kept := collect f.toFrame
    let watched := { world with watch := world.watch.set 0 ⟨.object 2, true, some (.path 9)⟩ }
    let s := opened (.inWork (.request .readWatch kept) true) watched
    let v : WatchView := s.slotView (s.watch.get 0)
    let first := after (.readWatch f) s
    let marked := opened (.inWork (.gathering kept (.watch [v] 15)) true) (first.report (.object 2))
    let last := after (.readWatch f) marked
    s.held = false ∧ f.phase = .service ∧ frameOk .readWatch kept = true ∧
      first.sl.transaction = .inWork (.gathering kept (.watch [v] 1)) true ∧
      first.ownWork.head? = some (.readWatch f) ∧
      first.watch.get 0 = ⟨.object 2, false, none⟩ ∧ v.summary.isSome ∧
      last.watch.get 0 = ⟨.object 2, true, none⟩ ∧
      last.sl.transaction = .pending ⟨0x61, f.tag, .ok, true, .watch [v, ⟨⟨.none, false, none⟩, none⟩]⟩) := by
  decide +kernel

/-- GET STATUS left in work: the path count from one moment and the pool from a later one; a completion that ends after the
slot was taken stays unread, one that the slot gave is read. -/
theorem test_status_in_turn : (let f := (fr []).at .service
    let kept := collect f.toFrame
    let asking := fun (v : StatusView) (next : StatusOwner) => Transaction.inWork (.gathering kept (.status v next)) false
    let ended : Slot := .done ⟨.digestPlan, 1, d0, d0, .ok, .digest 0 0 0 false, true⟩
    let v := world.statusView
    let first := after (.getStatus f) (opened (.inWork (.request .getStatus kept) false) world)
    let counted := after (.getStatus f) (opened (asking v .pathStore) world)
    let pooled := after (.getStatus f) { counted with tc := { counted.tc with poolFree := 7 } }
    let closing := fun taken : Slot => after (.getStatus f) (opened (asking { v with slot := taken } .timeBase)
      { world with sl := { ServiceLink.initial with slot := ended } })
    frameOk .getStatus kept = true ∧ first.sl.transaction = asking v .settingsStore ∧
      first.ownWork.head? = some (.getStatus f) ∧
      counted.sl.transaction = asking v .pool ∧ pooled.sl.transaction = asking { v with poolFree := 7 } .timeBase ∧
      (closing (.inFlight .digestPlan 1 d0)).sl.slot = ended ∧ (closing (.inFlight .digestPlan 1 d0)).attnR = true ∧
      (closing ended).sl.slot = ended.read ∧ (closing ended).attnR = false) := by decide +kernel

theorem test_status : world.admits .getStatus (fr []) ∧ world.admits .clearEditFault (fr []) ∧
    world.admits .unlockCapture (fr [3]) ∧ world.admits .unlockCapture (fr [4]) ∧
    (match (after (.getStatus (fr [])) { world with sl := { ServiceLink.initial with
      slot := .done ⟨.digestPlan, 1, d0, d0, .ok, .digest 0 0 0 false, true⟩ } }).sl.slot with
      | .done c => some c.unread
      | .empty => none
      | .inFlight _ _ _ => none) = some false := by decide +kernel

/-- A body of SET SETTING. -/
def setting (item n : Nat) (v : Int) : ReqFrame := fr (one item ++ one n ++ toBeInt 2 v)

/-- In range, clamped at both ends, a named value out of range, a number and an item that are none. -/
theorem test_set_setting : [setting 3 0 1440, setting 3 0 0, setting 3 0 1441, setting 17 0 2, setting 5 4 0,
      setting 18 0 0, setting 3 0 240, setting 2 0 (-721), setting 5 3 2000].map (fun f => answer (.setSetting f) world) =
    [some (.ok, .value 1440), some (.clamped, .value 1), some (.clamped, .value 1440), some (.outOfRange, .none),
      some (.outOfRange, .none), some (.outOfRange, .none), some (.ok, .value 240), some (.clamped, .value (-720)),
      some (.ok, .value 2000)] ∧
    (after (.setSetting (setting 5 3 2000)) world).settings.linkLatency.val = [0, 0, 0, 2000] ∧
    world.admits .setSetting (setting 3 0 1440) ∧ 3 ∈ SettingItem.linkLatency.numbers ∧ 4 ∉ SettingItem.linkLatency.numbers ∧
    SettingItem.linkLatency.inRange 2000 = true := by decide +kernel

/-- A save that verifies and one that does not; the image loads back. -/
theorem test_save_settings : (let a := after (.saveSettings (fr [])) world
    world.admits .saveSettings (fr []) ∧ a.copy = .invalid ∧ a.sl.slot.busy = true ∧ a.saving.isSome = true ∧
      (after (.saveWriteComplete true) a).copy.load = (Settings.default, .stored) ∧
      (after (.saveWriteComplete false) a).copy = .invalid ∧ Settings.default.inRange = true) := by decide +kernel

/-- Power-on loads a stored copy with line 3 enabled: its dial is unset. -/
theorem test_power_on : (let stored := { Settings.default with lineEnable := (Vec.fill 4 false).set 3 true }
    let t := after .powerOn { world with copy := .valid stored.image (imageCheck stored.image) }
    t.source = .stored ∧ t.objects = [] ∧ t.sc.lines.val.map (·.state) = [.off, .off, .off, .unset] ∧ t.attnR = true ∧
      (t.line 3).conds.map (·.cls) = [.dialUnset]) := by decide +kernel

/-- A restart keeps the lines and station time, empties the stores, and counts an impulse it cuts. -/
theorem test_restart : (let s := valid (.impulse ⟨.negative, .counted, 0, 300, false⟩) 719
    let t := after .restartTaken { s with tb := { s.tb with discipline := .locked, stationUs := 5 } }
    s.held = false ∧ t.held = true ∧ t.tb.discipline = .holdover ∧ t.tb.stationUs = 5 ∧ t.objects = [] ∧
      t.tc.poolFree = 16384 ∧ (t.line 0).state = .idle ∧ (t.line 0).dial = .at 0 .negative ∧
      (t.line 0).resolving = true ∧ ((after .restartTaken (valid (.gap 4) 7)).line 0).state = .idle ∧
      ((after .restartTaken (valid (.wait .holdWindow) 7)).line 0).state = .wait .holdWindow) := by decide +kernel

/-- The release loads the settings: here the defaults, which disable the lines. -/
theorem test_release : (let s := { valid .idle 7 with held := true }
    let stored := { Settings.default with lineEnable := Vec.fill 4 true }
    let kept := { s with copy := .valid stored.image (imageCheck stored.image) }
    ((after .restartRelease s).line 0).state = .off ∧ (after .restartRelease s).held = false ∧
      ((after .restartRelease kept).line 0).state = .impulse ⟨.negative, .counted, 0, 300, false⟩ ∧
      (((after .restartRelease (kept.setLine 1 { kept.line 1 with dial := .unknown })).line 1).conds.map (·.detail)) =
        [.dialUnset .minute .restart] ∧
      (after .restartRelease { kept with tb := { kept.tb with
        discipline := .holdover, holdoverStart := some 0, elapsed := 14400000 } }).tb.discipline = .drift ∧
      (after .restartRelease world).held = false) := by decide +kernel

/-- At the release REFERENCE_LOST in ACTIVE_ACK is presented again, and TIME_STEPPED stands as it was. -/
theorem test_release_presents : (let stepped : Condition := ⟨.timeStepped, .clearUnack, d0, 5, .timeStepped 3 .setTime, 4⟩
    let s := { world with held := true, tb := { TimeBase.initial with
      discipline := .holdover, holdoverStart := some 8, elapsed := 9, lastPulse := some 2000
      conds := [⟨.referenceLost, .activeAck, d0, 7, .referenceLost none, 6⟩, stepped] } }
    (after .restartRelease s).tb.conds =
      [⟨.referenceLost, .activeUnack, ⟨0, .holdover, .observed⟩, 9, .referenceLost (some 2), 1⟩, stepped]) := by
  decide +kernel

/-- At the release a limit already reached is announced to both receivers, and then civil time of another offset. -/
theorem test_release_announces : (let stored := { Settings.default with civilOffset := 60 }
    let s := { world with held := true, copy := .valid stored.image (imageCheck stored.image), tb := { TimeBase.initial with
      discipline := .holdover, holdoverStart := some 0, elapsed := 14400000 } }
    let t := after .restartRelease s
    t.tc.announcements = [⟨.unsync, 0, none⟩] ∧
      t.sc.announcements = [.time ⟨.unsync, 0, none⟩, .civil t.civilMs] ∧ t.civilMs ≠ s.civilMs ∧
      (after .restartRelease { s with copy := .blank, tb := TimeBase.initial }).sc.announcements = []) := by decide +kernel

/-- The front command runs on the state with the queue's rest. -/
theorem test_step_takes_the_front : step { world with pending := [.refMsgBadCharacter, .activation] } =
    exec .refMsgBadCharacter { world with pending := [.activation] } := rfl

/-- The state after reset is quiet: nothing is due in it. -/
theorem test_premises_quiet : State.reset.pending = [] ∧ State.reset.quiet := by
  have lines : ∀ i, State.reset.line i = .initial := by decide +kernel
  have links : ∀ i, State.reset.link i = .initial := by decide +kernel
  refine ⟨rfl, .inr (by decide), fun _ => ⟨by simp [State.reset, TimeBase.initial], by simp [State.reset, TimeBase.initial],
    by simp [State.reset, TimeBase.initial], fun i => ?_, by simp [State.reset], fun i => ?_, rfl, rfl, rfl, rfl,
    by simp [State.reset, TimetableChecker.initial], rfl, rfl, rfl, by simp [State.reset, ServiceLink.initial]⟩⟩
  · simp [State.linkQuiet, links, Link.initial]
  · simp [State.lineQuiet, lines, Line.initial]

/-- A step with nothing due is one microsecond: here in a gap, one short of its end. -/
theorem test_idle_step : (let s := { valid (.gap 0) 719 with
      tb := { TimeBase.initial with timeValid := true, elapsed := 699, oscPhase := 999 } }
    match step s with
    | .next t => some t
    | .fault _ => none
    | .refused _ => none) = some { valid (.gap 0) 719 with tb := { TimeBase.initial with
      timeValid := true, stationUs := 1, slewPhase := 1, elapsed := 700 } } := by decide +kernel

end Sys2Proof.Tests
end

section
/-! PROOFS. The REF_PPS edge whose pulse is not valid, and a valid pulse in FREE (R6, R7, R13, R15, R22). -/

namespace Sys2Proof.Machine

/-- A valid pulse in FREE steps to its reference time whatever the offset, and enters ACQUIRE (R7). -/
theorem TimeBase.pulse_free {t : TimeBase} (o : Int) (ref : Nat) (h : t.discipline = .free) : t.pulse o ref =
    ({ t.stepTo ref with discipline := .acquire, good := 1, outliers := 0 }, true) := by
  simp only [TimeBase.pulse, h]

section Edge

variable {s : State}

/-- The edge of a pulse that is not valid, for want of a message or by its flag, is that of the Time Base alone (R6). -/
theorem State.exec_refPpsEdge_invalid (held : s.held = false) (invalid : ∀ m, s.tb.heldMsg = some m → m.valid = false) :
    exec .refPpsEdge s = .next ({ s with tb := s.tb.edge } : State).settle := by
  show (s.whenRunning State.ppsEdge).answer = _
  rw [State.whenRunning_of _ held, State.answer_eq]
  unfold State.ppsEdge
  split
  next m message => rw [if_neg (by simp [invalid m message])]
  next => rfl

/-- A new record of the Time Base and its announcements, brought up to date, change nothing else but the attention lines. -/
theorem State.settle_withTimeBase (s : State) (tb : TimeBase) (sent : List Announcement) :
    (s.withTimeBase tb sent).settle = { s with
      tb := tb
      tc := { s.tc with announcements := s.tc.announcements ++ sent }
      sc := { s.sc with announcements := s.sc.announcements ++ sent.map ScAnnouncement.time }
      attnU := (s.withTimeBase tb sent).settle.attnU, attnR := (s.withTimeBase tb sent).settle.attnR } := rfl

/-- The Time Base after a valid pulse in FREE: captured, stepped to the reference time with TIME_STEPPED raised, recorded,
and in ACQUIRE, where both sustained causes have ended, with the first good pulse counted (R6, R7, R15, R22). -/
def TimeBase.steppedFromFree (t : TimeBase) (ref : Nat) : TimeBase :=
  let size : Int := (ref : Int) - t.stationUs
  { t with
    stationUs := ref, discipline := .acquire, good := 1, outliers := 0, residual := 0, timeValid := true
    lastOffset := some ((t.stationUs : Int) - ref), lastStep := some size
    lastPulse := some ref, gapStart := some ref, heldMsg := none, precedingEdge := some t.elapsed
    conds := ((t.conds.raised .timeStepped ⟨ref / 1000, .holdover, .observed⟩ t.elapsed
      (.timeStepped size .reference)).without .referenceLost).without .holdoverExpired }

/-- A valid pulse in FREE leaves the Time Base stepped and in ACQUIRE, and announces step and quality at once (R7, R13). -/
theorem State.exec_refPpsEdge_free {m : RefMsg} {ref : Nat} (held : s.held = false)
    (free : s.tb.discipline = .free) (running : s.tb.rangeHold = false) (message : s.tb.heldMsg = some m)
    (valid : m.valid = true) (reference : m.day * 86400000000 + m.second * 1000000 = ref) :
    exec .refPpsEdge s = .next (s.withTimeBase (s.tb.steppedFromFree ref)
      [⟨.holdover, ref, some ⟨s.tb.stationUs, ref, (ref : Int) - s.tb.stationUs⟩⟩]).settle := by
  let o : Int := (s.tb.stationUs : Int) - ref
  have size : -o = (ref : Int) - s.tb.stationUs := Int.neg_sub ..
  have pulse := TimeBase.pulse_free (t := { s.tb.edge with lastOffset := some o }) o ref free
  rw [State.exec_refPpsEdge held message valid, reference,
    State.validPulse_steps rfl pulse rfl rfl (congrArg some size.symm) rfl, size]
  simp only [TimeBase.steppedFromFree, TimeBase.afterPulse, TimeBase.stepTo, TimeBase.edge, running,
    Bool.false_eq_true, if_false, o]

/-- After the step from FREE, TIME_STEPPED awaits acknowledgement with the size of the step: the causes that end in
ACQUIRE are of other classes (R15, R22). -/
theorem TimeBase.find_timeStepped_steppedFromFree (t : TimeBase) (ref : Nat) :
    ((t.steppedFromFree ref).conds.find .timeStepped).map (fun c => (c.state, c.detail)) =
      some (.clearUnack, .timeStepped ((ref : Int) - t.stationUs) .reference) := by
  obtain ⟨count, found⟩ := t.conds.find_raised .timeStepped ⟨ref / 1000, .holdover, .observed⟩ t.elapsed
    (.timeStepped ((ref : Int) - t.stationUs) .reference)
  simp only [TimeBase.steppedFromFree]
  rw [CondSet.find_without_ne _ (by decide), CondSet.find_without_ne _ (by decide), found]
  rfl

end Edge

/-- Settles O18: the edge without a valid message is the Time Base's own, and the handling of a valid pulse in FREE is
the step to ACQUIRE. -/
theorem pulseInvalidOrInFree : Obligations.PulseInvalidOrInFree := by
  unfold Obligations.PulseInvalidOrInFree
  constructor
  · intro s held invalid
    exact State.exec_refPpsEdge_invalid held invalid
  · intro s m held free running message valid
    exact ⟨_, State.exec_refPpsEdge_free held free running message valid rfl, State.settle_withTimeBase ..,
      s.tb.find_timeStepped_steppedFromFree _⟩

end Sys2Proof.Machine
end

section
/-! PROOFS. Taking a gap marker: which records become stale, and which watch slots are marked (R53, R58). -/

namespace Sys2Proof.Machine

section GapMarker

variable {s : State} {i : Fin 4} {start : StationQ} {n : Nat} {r : ObjectRec}

/-- A record of another link, or one that is stale already, fails the test for becoming stale (R53). -/
theorem ObjectRec.not_fresh_of_kept (kept : r.link ≠ i ∨ r.stale ≠ none) :
    ¬ (r.link = i ∧ r.stale.isNone = true) := fun ⟨link, fresh⟩ =>
  kept.elim (· link) (· (Option.isNone_iff_eq_none.mp fresh))

/-- A record of the marker's link that is not yet stale becomes stale from the gap start (R53). -/
theorem ObjectRec.markStale_of_fresh (link : r.link = i) (fresh : r.stale = none) :
    r.markStale i start = { r with stale := some start } :=
  if_pos ⟨link, by rw [fresh]; rfl⟩

/-- A record of another link, or one that is stale already, stands as it is (R53). -/
theorem ObjectRec.markStale_of_kept (kept : r.link ≠ i ∨ r.stale ≠ none) : r.markStale i start = r :=
  if_neg (ObjectRec.not_fresh_of_kept kept)

/-- A slot is marked changed where the record it watches becomes stale (R53, R58). -/
theorem WatchSlot.stales_of_fresh {objects : Store ObjectRec} {x : WatchSlot} (watches : x.subject = .object n)
    (stored : objects.get n = some r) (link : r.link = i) (fresh : r.stale = none) :
    x.stales objects i = { x with changed := true } := by
  simp only [WatchSlot.stales, watches, stored]
  exact if_pos ⟨link, by rw [fresh]; rfl⟩

/-- A slot that watches no record becoming stale stands as it is (R53, R58). -/
theorem WatchSlot.stales_of_kept {objects : Store ObjectRec} {x : WatchSlot}
    (kept : ∀ n r, x.subject = .object n → objects.get n = some r → r.link ≠ i ∨ r.stale ≠ none) :
    x.stales objects i = x := by
  unfold WatchSlot.stales
  split
  next n watches =>
    split
    next r stored => exact if_neg (ObjectRec.not_fresh_of_kept (kept n r watches stored))
    next => rfl
  next => rfl
  next => rfl

/-- A gap marker at the head of a queue leaves the queue and marks the records of its own link. -/
theorem State.exec_takeGapMarker {m : GapMarker} {rest : List QueueEntry} (held : s.held = false)
    (head : (s.link i).queue = .marker m :: rest) :
    exec (.takeGapMarker i) s = .next ((s.withoutHead i rest).markStale m.link m.start).settle := by
  show (s.whenRunning fun s => s.takeMarker i).answer = _
  rw [State.whenRunning_of _ held, State.takeMarker, head]
  simp only
  rw [State.popped_eq head, State.answer_eq]

/-- Taking the marker maps over the records: each is marked by its own link and stale flag (R53). -/
theorem State.object_takenMarker (s : State) (i j : Fin 4) (rest : List QueueEntry) (start : StationQ) (n : Nat) :
    ((s.withoutHead i rest).markStale j start).settle.object n = (s.object n).map (ObjectRec.markStale j start) :=
  Store.get_mapVals ..

/-- Taking the marker maps over the slots: each is marked by the record it watches as it stood before (R53, R58). -/
theorem State.watch_takenMarker (s : State) (i j : Fin 4) (rest : List QueueEntry) (start : StationQ) (k : Fin 16) :
    ((s.withoutHead i rest).markStale j start).settle.watch.get k = (s.watch.get k).stales s.objects j :=
  Vec.get_map ..

end GapMarker

/-- Settles O33: taking the marker maps over the records and over the slots, and each map turns on the link and the
stale flag of the record alone. -/
theorem gapMarkerMakesRecordsStale : Obligations.GapMarkerMakesRecordsStale := by
  unfold Obligations.GapMarkerMakesRecordsStale
  intro s i m rest held head
  refine ⟨_, State.exec_takeGapMarker held head, rfl, fun n absent => ?_, fun n r stored link fresh => ?_,
    fun n r stored kept => ?_, fun k => ⟨?_, fun kept => ?_⟩⟩
  · rw [State.object_takenMarker, absent, Option.map_none]
  · rw [State.object_takenMarker, stored, Option.map_some, ObjectRec.markStale_of_fresh link fresh]
  · rw [State.object_takenMarker, stored, Option.map_some,
      ObjectRec.markStale_of_kept (kept.imp_right Option.isSome_iff_ne_none.mp)]
  · rintro ⟨n, r, watches, stored, link, fresh⟩
    rw [State.watch_takenMarker, WatchSlot.stales_of_fresh watches stored link fresh]
  · rw [State.watch_takenMarker, WatchSlot.stales_of_kept kept]

end Sys2Proof.Machine
end

section
/-! PROOFS. The duration code through its three bands: exact, ten significant bits, saturated (R82). -/

namespace Sys2Proof.Machine

section Duration

variable {d e : Nat} {valid : Bool}

/-- Below 1,024 ms the mantissa is the duration itself (R82). -/
theorem encodeDuration_of_lt (short : d < 1024) : encodeDuration d valid = ⟨0, d, valid⟩ := if_pos short

/-- From 131,072 ms on the code is the largest there is (R82). -/
theorem encodeDuration_of_ge (saturated : 131072 ≤ d) : encodeDuration d valid = ⟨7, 1023, valid⟩ := by
  rw [encodeDuration, if_neg (by omega), if_neg (by omega)]

/-- Between the two the exponent is the one whose ten-bit window holds the highest set bit of the duration (R82). -/
theorem encodeDuration_of_window (low : 1 ≤ e) (high : e ≤ 7) (above : 2 ^ (e + 9) ≤ d) (below : d < 2 ^ (e + 10)) :
    encodeDuration d valid = ⟨e, d / 2 ^ e, valid⟩ := by
  have rounded : 1024 ≤ d := (Nat.pow_le_pow_right two_pos (show 10 ≤ e + 9 by omega)).trans above
  have unsaturated : d < 131072 := below.trans_le (Nat.pow_le_pow_right two_pos (show e + 10 ≤ 17 by omega))
  have highest : d.log2 = e + 9 := (Nat.log2_eq_iff (by omega)).mpr ⟨above, below⟩
  rw [encodeDuration, if_neg (by omega), if_pos unsaturated, highest, Nat.add_sub_cancel]

/-- Each duration from 1,024 ms to below 131,072 ms has its highest set bit in one of the bits 10 to 16 (R82). -/
theorem exists_durationWindow (rounded : 1024 ≤ d) (unsaturated : d < 131072) :
    ∃ e, 1 ≤ e ∧ e ≤ 7 ∧ 2 ^ (e + 9) ≤ d ∧ d < 2 ^ (e + 10) := by
  have low : 10 ≤ d.log2 := (Nat.le_log2 (by omega)).mpr rounded
  have high : d.log2 < 17 := (Nat.log2_lt (by omega)).mpr unsaturated
  obtain ⟨e, highest⟩ := Nat.exists_eq_add_of_le' (show 9 ≤ d.log2 by omega)
  obtain ⟨above, below⟩ := (Nat.log2_eq_iff (by omega)).mp highest
  exact ⟨e, by omega, by omega, above, below⟩

/-- A duration shifted out of its window keeps ten significant bits (R82). -/
theorem div_of_durationWindow (above : 2 ^ (e + 9) ≤ d) (below : d < 2 ^ (e + 10)) :
    512 ≤ d / 2 ^ e ∧ d / 2 ^ e ≤ 1023 := by
  rw [Nat.pow_add'] at above below
  exact ⟨(Nat.le_div_iff_mul_le (Nat.two_pow_pos e)).mpr above,
    Nat.le_of_lt_succ ((Nat.div_lt_iff_lt_mul (Nat.two_pow_pos e)).mpr below)⟩

/-- Decoding what was divided falls short of the duration by less than the divisor (R82). -/
theorem DurationCode.decoded_div (d e : Nat) (valid : Bool) :
    (DurationCode.mk e (d / 2 ^ e) valid).decoded ≤ d ∧
      d < (DurationCode.mk e (d / 2 ^ e) valid).decoded + 2 ^ e :=
  ⟨Nat.div_mul_le_self d _, Nat.lt_div_mul_add (Nat.two_pow_pos e)⟩

/-- With exponent 0 the mantissa is the decoded value (R82). -/
theorem DurationCode.decoded_exponent_zero (d : Nat) (valid : Bool) : (DurationCode.mk 0 d valid).decoded = d :=
  Nat.mul_one d

/-- A code whose two fields lie in their ranges decodes to at most 130,944 ms (R82). -/
theorem DurationCode.decoded_le {c : DurationCode} (exponent : c.exponent ≤ 7) (mantissa : c.mantissa ≤ 1023) :
    c.decoded ≤ 130944 :=
  calc c.decoded
    _ ≤ 1023 * 2 ^ 7 := Nat.mul_le_mul mantissa (Nat.pow_le_pow_right two_pos exponent)
    _ = 130944 := by norm_num

end Duration

/-- Settles O41: the code is followed through its three bands. Between the two bounds it is the quotient by the power of
two that leaves ten significant bits, and every quotient decodes to less than one divisor below the duration. -/
theorem durationCodeIsClose : Obligations.DurationCodeIsClose := by
  unfold Obligations.DurationCodeIsClose
  intro d valid
  obtain short | rounded := Nat.lt_or_ge d 1024
  · have most : d ≤ 1023 := Nat.le_of_lt_succ short
    rw [encodeDuration_of_lt short]
    refine ⟨rfl, Nat.zero_le 7, most, DurationCode.decoded_le (Nat.zero_le 7) most, fun _ => ⟨rfl, rfl⟩,
      fun rounded => absurd short rounded.not_gt, fun saturated => absurd short (by omega), fun _ => ?_⟩
    rw [DurationCode.decoded_exponent_zero]
    exact ⟨le_rfl, Nat.lt_succ_self d⟩
  obtain unsaturated | saturated := Nat.lt_or_ge d 131072
  · obtain ⟨e, low, high, above, below⟩ := exists_durationWindow rounded unsaturated
    obtain ⟨least, most⟩ := div_of_durationWindow above below
    rw [encodeDuration_of_window low high above below]
    exact ⟨rfl, high, most, DurationCode.decoded_le high most, fun short => absurd short rounded.not_gt,
      fun _ _ => ⟨low, above, below, rfl, least⟩, fun saturated => absurd unsaturated saturated.not_gt,
      fun _ => DurationCode.decoded_div d e valid⟩
  · rw [encodeDuration_of_ge saturated]
    exact ⟨rfl, le_rfl, le_rfl, DurationCode.decoded_le le_rfl le_rfl, fun short => absurd short rounded.not_gt,
      fun _ unsaturated => absurd unsaturated saturated.not_gt, fun _ => ⟨rfl, rfl⟩,
      fun unsaturated => absurd unsaturated saturated.not_gt⟩

end Sys2Proof.Machine
end

section
/-! PROOFS. The transitions of a condition, row by row of Table 8-1a, and where a report puts its set (R153 to R157). -/

namespace Sys2Proof.Machine

section Present

variable {cs : CondSet} {c : Class}

/-- A class is absent where no condition of the set is of it (R153). -/
theorem CondSet.find_eq_none_iff : cs.find c = none ↔ ∀ x ∈ cs, x.cls ≠ c := by
  simp only [CondSet.find, List.find?_eq_none, decide_eq_true_eq, ne_eq]

/-- Of the three states of a condition only CLEAR_UNACK is not active (R153). -/
theorem CondState.active_eq_true_iff {state : CondState} : state.active = true ↔ state ≠ .clearUnack := by
  cases state <;> decide

/-- The cause of a class is active where its condition is present in another state than CLEAR_UNACK (R153). -/
theorem CondSet.active_eq_true_iff :
    cs.active c = true ↔ ∃ x, cs.find c = some x ∧ x.state ≠ .clearUnack := by
  unfold CondSet.active
  cases cs.find c with
  | none => simp only [Bool.false_eq_true, reduceCtorEq, false_and, exists_false]
  | some x => simp only [CondState.active_eq_true_iff, Option.some.injEq, exists_eq_left']

end Present

section Rows

variable {cs : CondSet} {c : Class} {x : Condition} {date : Date} {mark : Nat} {detail : Detail}

/-- A cause that begins where the condition is absent counts from 1 (Table 8-1a). -/
theorem CondSet.find_begun_of_absent (absent : cs.find c = none) :
    (cs.begun c date mark detail).find c = some ⟨c, .activeUnack, date, mark, detail, 1⟩ := by
  rw [CondSet.begun, absent]
  exact CondSet.find_put_self ..

/-- A cause that begins anew over ACTIVE_ACK counts from 1 again (Table 8-1a). -/
theorem CondSet.find_begun_of_activeAck (found : cs.find c = some x) (state : x.state = .activeAck) :
    (cs.begun c date mark detail).find c = some ⟨c, .activeUnack, date, mark, detail, 1⟩ := by
  simp only [CondSet.begun, found, if_pos state]
  exact CondSet.find_put_self ..

/-- A cause that begins over an unacknowledged condition counts one raise more (Table 8-1a). -/
theorem CondSet.find_begun_of_unack (found : cs.find c = some x) (state : x.state ≠ .activeAck) :
    (cs.begun c date mark detail).find c =
      some ⟨c, .activeUnack, date, mark, detail, min 255 (x.count + 1)⟩ := by
  simp only [CondSet.begun, found, if_neg state]
  exact CondSet.find_put_self ..

/-- A momentary raise where the condition is absent counts from 1 (R155). -/
theorem CondSet.find_raised_of_absent (absent : cs.find c = none) :
    (cs.raised c date mark detail).find c = some ⟨c, .clearUnack, date, mark, detail, 1⟩ := by
  rw [CondSet.raised, absent]
  exact CondSet.find_put_self ..

/-- A momentary raise of a condition that is present counts one raise more (R155). -/
theorem CondSet.find_raised_of_present (found : cs.find c = some x) :
    (cs.raised c date mark detail).find c =
      some ⟨c, .clearUnack, date, mark, detail, min 255 (x.count + 1)⟩ := by
  simp only [CondSet.raised, found]
  exact CondSet.find_put_self ..

/-- There is nothing to end where the condition is absent. -/
theorem CondSet.find_ended_of_absent (absent : cs.find c = none) : (cs.ended c).find c = none := by
  rw [CondSet.find_ended, absent, Option.bind_none]

/-- The end of an unacknowledged cause leaves CLEAR_UNACK, with the raise as it was recorded (Table 8-1a). -/
theorem CondSet.find_ended_of_activeUnack (found : cs.find c = some x) (state : x.state = .activeUnack) :
    (cs.ended c).find c = some { x with state := .clearUnack } := by
  rw [CondSet.find_ended, found, Option.bind_some, state]

/-- The end of an acknowledged cause removes the condition (Table 8-1a). -/
theorem CondSet.find_ended_of_activeAck (found : cs.find c = some x) (state : x.state = .activeAck) :
    (cs.ended c).find c = none := by
  rw [CondSet.find_ended, found, Option.bind_some, state]

/-- A cause that has ended already does not end again. -/
theorem CondSet.find_ended_of_clearUnack (found : cs.find c = some x) (state : x.state = .clearUnack) :
    (cs.ended c).find c = some x := by
  rw [CondSet.find_ended, found, Option.bind_some, state]

/-- There is nothing to acknowledge where the condition is absent. -/
theorem CondSet.find_acknowledged_of_absent (absent : cs.find c = none) : (cs.acknowledged c).find c = none := by
  rw [CondSet.find_acknowledged, absent, Option.bind_none]

/-- An acknowledged condition whose cause lasts stands as ACTIVE_ACK (Table 8-1a). -/
theorem CondSet.find_acknowledged_of_activeUnack (found : cs.find c = some x) (state : x.state = .activeUnack) :
    (cs.acknowledged c).find c = some { x with state := .activeAck } := by
  rw [CondSet.find_acknowledged, found, Option.bind_some, state]

/-- A condition acknowledged already is not acknowledged again. -/
theorem CondSet.find_acknowledged_of_activeAck (found : cs.find c = some x) (state : x.state = .activeAck) :
    (cs.acknowledged c).find c = some x := by
  rw [CondSet.find_acknowledged, found, Option.bind_some, state]

/-- An acknowledged condition whose cause has ended is gone (Table 8-1a, R155). -/
theorem CondSet.find_acknowledged_of_clearUnack (found : cs.find c = some x) (state : x.state = .clearUnack) :
    (cs.acknowledged c).find c = none := by
  rw [CondSet.find_acknowledged, found, Option.bind_some, state]

/-- A cause that begins and ends in one event leaves CLEAR_UNACK with the raise of its beginning, the count as the
beginning made it (R156). -/
theorem CondSet.find_ended_begun {count : Nat}
    (begun : (cs.begun c date mark detail).find c = some ⟨c, .activeUnack, date, mark, detail, count⟩) :
    ((cs.begun c date mark detail).ended c).find c = some ⟨c, .clearUnack, date, mark, detail, count⟩ :=
  CondSet.find_ended_of_activeUnack begun rfl

end Rows

section Reports

variable {s : State} {x : Subject} {c : Class} {detail : Detail}

/-- A cause that is not active begins, whatever else its condition is (R154). -/
theorem State.beginCause_of_inactive (inactive : s.causeActive x c = false) :
    s.beginCause x c detail = s.causeBegins x c detail := by
  rw [State.beginCause, inactive, if_neg Bool.false_ne_true]

/-- A cause that is active already does not begin (R154). -/
theorem State.beginCause_of_active (active : s.causeActive x c = true) : s.beginCause x c detail = s := by
  rw [State.beginCause, active, if_pos rfl]

/-- A cause that is not active does not end (R154). -/
theorem State.endCause_of_inactive (inactive : s.causeActive x c = false) : s.endCause x c = s := by
  rw [State.endCause, inactive, if_neg Bool.false_ne_true]

/-- A cause that is active ends (R154). -/
theorem State.endCause_of_active (active : s.causeActive x c = true) :
    s.endCause x c = s.setConds x ((s.condsOf x).ended c) := by
  rw [State.endCause, active, if_pos rfl]

/-- Each of the five reports is one transition of the subject's own set, put back where `put` says that set is kept; a
cause begins only where it is not active, and ends only where it is (R153, R154, R157). -/
theorem State.reports_of_setConds {cs : CondSet} {put : CondSet → State} (kept : s.condsOf x = cs)
    (replaced : ∀ new, s.setConds x new = put new) :
    s.causeBegins x c detail = put (cs.begun c s.now s.elapsed detail) ∧
      s.raiseMomentary x c detail = put (cs.raised c s.now s.elapsed detail) ∧
      s.acknowledge x c = put (cs.acknowledged c) ∧
      (cs.active c = false → s.beginCause x c detail = s.causeBegins x c detail ∧ s.endCause x c = s) ∧
      (cs.active c = true → s.beginCause x c detail = s ∧ s.endCause x c = put (cs.ended c)) := by
  subst kept
  exact ⟨replaced _, replaced _, replaced _,
    fun inactive => ⟨State.beginCause_of_inactive inactive, State.endCause_of_inactive inactive⟩,
    fun active => ⟨State.beginCause_of_active active, (State.endCause_of_active active).trans (replaced _)⟩⟩

end Reports

/-- Settles O53: a report at any subject is one transition of the set kept in that subject's record, and each transition
is read off its row of Table 8-1a by the state of the condition before it. -/
theorem conditionsFollowTheirTransitions : Obligations.ConditionsFollowTheirTransitions := by
  unfold Obligations.ConditionsFollowTheirTransitions
  refine ⟨fun cs c => ⟨CondSet.find_eq_none_iff, fun x found => ⟨List.mem_of_find?_eq_some found,
    CondSet.cls_of_find found⟩, CondSet.active_eq_true_iff⟩,
    fun s c detail => ⟨?timeBase, ?link, ?line, ?object, ?path⟩,
    fun cs c date mark detail => ⟨?others, ?absent, ?activeAck, ?clearUnack, ?activeUnack, ?beginsAndEnds⟩⟩
  case timeBase => exact State.reports_of_setConds rfl fun _ => rfl
  case link => exact fun i => State.reports_of_setConds rfl (s.setConds_link i)
  case line => exact fun i => State.reports_of_setConds rfl (s.setConds_line i)
  case object =>
    exact fun n r stored => State.reports_of_setConds (s.condsOf_object stored) (s.setConds_object stored)
  case path => exact fun n p stored => State.reports_of_setConds (s.condsOf_path stored) (s.setConds_path stored)
  case others =>
    exact fun d other => ⟨CondSet.find_begun_ne cs date mark detail other.symm, CondSet.find_ended_ne cs other.symm,
      CondSet.find_raised_ne cs date mark detail other.symm, CondSet.find_acknowledged_ne cs other.symm⟩
  case absent =>
    exact fun absent => ⟨CondSet.find_begun_of_absent absent, CondSet.find_raised_of_absent absent,
      CondSet.find_ended_of_absent absent, CondSet.find_acknowledged_of_absent absent⟩
  case activeAck =>
    exact fun x found state => ⟨CondSet.find_begun_of_activeAck found state,
      CondSet.find_ended_of_activeAck found state, CondSet.find_acknowledged_of_activeAck found state⟩
  case clearUnack =>
    exact fun x found state => ⟨CondSet.find_begun_of_unack found (by simp [state]),
      CondSet.find_raised_of_present found, CondSet.find_ended_of_clearUnack found state,
      CondSet.find_acknowledged_of_clearUnack found state⟩
  case activeUnack =>
    exact fun x found state => ⟨CondSet.find_begun_of_unack found (by simp [state]),
      CondSet.find_ended_of_activeUnack found state, CondSet.find_acknowledged_of_activeUnack found state⟩
  case beginsAndEnds =>
    cases found : cs.find c with
    | none => exact ⟨_, CondSet.find_ended_begun (CondSet.find_begun_of_absent found), rfl, rfl, rfl, rfl, rfl⟩
    | some y =>
      by_cases state : y.state = .activeAck
      · exact ⟨_, CondSet.find_ended_begun (CondSet.find_begun_of_activeAck found state), rfl, rfl, rfl, rfl,
          (if_pos state).symm⟩
      · exact ⟨_, CondSet.find_ended_begun (CondSet.find_begun_of_unack found state), rfl, rfl, rfl, rfl,
          (if_neg state).symm⟩

end Sys2Proof.Machine
end

section
/-! SUPPORT. What every change of the state keeps, said once: the ranges of the settings and of the Time Base, the elapsed
count, the arrival queues, the order of the stores and condition sets, the pool's account, and the state-since dates. -/

namespace Sys2Proof.Machine

/-- The account of the pool and the slot depends on the Path Store's record, the slot and the save in progress alone. -/
theorem State.poolSound_of_eq {s t : State} (paths : t.tc.paths = s.tc.paths) (free : t.tc.poolFree = s.tc.poolFree)
    (reserved : t.tc.poolReserved = s.tc.poolReserved) (op : t.tc.repeatOp = s.tc.repeatOp)
    (digest : t.tc.digest = s.tc.digest) (slot : t.sl.slot = s.sl.slot) (saving : t.saving = s.saving)
    (h : s.poolSound) : t.poolSound := by
  simpa only [State.poolSound, State.storedPoints, State.repeatSound, State.slotSound, State.path, paths, free, reserved,
    op, digest, slot, saving] using h

/-- A change of the state that keeps what every step keeps. A record of an object that stands after it stood before it,
with a state-since date no later; so a change that creates a record is none of these. -/
structure State.Keeps (s t : State) : Prop where
  settings : s.settings.inRange = true → t.settings.inRange = true
  timeBase : s.tb.inRange → t.tb.inRange
  elapsed : s.tb.elapsed ≤ t.tb.elapsed
  queues : s.queuesSound → t.queuesSound
  stores : s.storesSound → t.storesSound
  pool : s.poolSound → t.poolSound
  since : ∀ n r, t.object n = some r → ∃ r₀, s.object n = some r₀ ∧ r₀.since.ms ≤ r.since.ms

namespace State.Keeps

variable {s t u : State} {n : Nat}

theorem refl (s : State) : s.Keeps s := ⟨id, id, le_rfl, id, id, id, fun _ r h => ⟨r, h, le_rfl⟩⟩

theorem trans (a : s.Keeps t) (b : t.Keeps u) : s.Keeps u where
  settings h := b.settings (a.settings h)
  timeBase h := b.timeBase (a.timeBase h)
  elapsed := a.elapsed.trans b.elapsed
  queues h := b.queues (a.queues h)
  stores h := b.stores (a.stores h)
  pool h := b.pool (a.pool h)
  since n r h := by
    obtain ⟨r₁, h₁, le₁⟩ := b.since n r h
    obtain ⟨r₀, h₀, le₀⟩ := a.since n r₁ h₁
    exact ⟨r₀, h₀, le₀.trans le₁⟩

/-- A change taken under a test, or none. -/
theorem ite {c : Prop} [Decidable c] (yes : c → s.Keeps t) (no : ¬ c → s.Keeps u) : s.Keeps (if c then t else u) := by
  split
  · exact yes ‹_›
  · exact no ‹_›

/-! ### By the part of the state that changes -/

/-- A change of nothing that the invariants speak of: watch slots, events, answers, announcements, the transaction, the
latch, the service state and the model's own counts. -/
theorem aside (settings : t.settings = s.settings := by rfl) (tb : t.tb = s.tb := by rfl)
    (links : t.links = s.links := by rfl) (lines : t.sc.lines = s.sc.lines := by rfl)
    (objects : t.objects = s.objects := by rfl) (paths : t.tc.paths = s.tc.paths := by rfl)
    (free : t.tc.poolFree = s.tc.poolFree := by rfl) (reserved : t.tc.poolReserved = s.tc.poolReserved := by rfl)
    (op : t.tc.repeatOp = s.tc.repeatOp := by rfl) (digest : t.tc.digest = s.tc.digest := by rfl)
    (slot : t.sl.slot = s.sl.slot := by rfl) (saving : t.saving = s.saving := by rfl) : s.Keeps t where
  settings h := by rwa [settings]
  timeBase h := by rwa [tb]
  elapsed := by rw [tb]
  queues h := by simpa only [State.queuesSound, State.link, links] using h
  stores h := by
    simpa only [State.storesSound, State.condsOrdered, State.link, State.line, tb, links, lines, objects, paths] using h
  pool := State.poolSound_of_eq paths free reserved op digest slot saving
  since n r h := ⟨r, by simpa only [State.object, objects] using h, le_rfl⟩

theorem report {w : Watched} : s.Keeps (s.report w) := aside

theorem unwatch {w : Watched} : s.Keeps (s.unwatch w) := aside

theorem hand {ev : BerthEvent} : s.Keeps (s.hand ev) := aside

theorem dropAnswers : s.Keeps (s.dropAnswers n) := aside

/-- The Time Base changed within its ranges, its conditions in class order and its elapsed count running on. -/
theorem setTimeBase {tb : TimeBase} (range : s.tb.inRange → tb.inRange) (elapsed : s.tb.elapsed ≤ tb.elapsed)
    (conds : tb.conds = s.tb.conds) : s.Keeps { s with tb := tb } where
  settings := id
  timeBase := range
  elapsed := elapsed
  queues := id
  stores h := by simpa only [State.storesSound, State.condsOrdered, State.link, State.line, conds] using h
  pool := State.poolSound_of_eq rfl rfl rfl rfl rfl rfl rfl
  since n r h := ⟨r, h, le_rfl⟩

/-- A link's record changed, its queue kept sound and its conditions in class order. -/
theorem setLink {i : Fin 4} {l : Link} (sound : (s.link i).queueSound → l.queueSound)
    (conds : l.conds = (s.link i).conds) : s.Keeps (s.setLink i l) where
  settings := id
  timeBase := id
  elapsed := le_rfl
  queues h j := by
    by_cases e : i = j
    · subst e
      rw [State.link_setLink_self]
      exact sound (h i)
    · rw [State.link_setLink_ne _ _ e]
      exact h j
  stores h := by
    obtain ⟨objects, paths, numbers, tb, links, rest⟩ := h
    refine ⟨objects, paths, numbers, tb, fun j => ?_, rest⟩
    by_cases e : i = j
    · subst e
      rw [State.link_setLink_self, conds]
      exact links i
    · rw [State.link_setLink_ne _ _ e]
      exact links j
  pool := State.poolSound_of_eq rfl rfl rfl rfl rfl rfl rfl
  since n r h := ⟨r, h, le_rfl⟩

theorem onLink {i : Fin 4} {f : Link → Link} (sound : (s.link i).queueSound → (f (s.link i)).queueSound)
    (conds : (f (s.link i)).conds = (s.link i).conds) : s.Keeps (s.onLink i f) := setLink sound conds

/-- A line's record changed, but for its conditions. -/
theorem setLine {i : Fin 4} {l : Line} (conds : l.conds = (s.line i).conds) : s.Keeps (s.setLine i l) where
  settings := id
  timeBase := id
  elapsed := le_rfl
  queues := id
  stores h := by
    obtain ⟨objects, paths, numbers, tb, links, lines, rest⟩ := h
    refine ⟨objects, paths, numbers, tb, links, fun j => ?_, rest⟩
    by_cases e : i = j
    · subst e
      rw [State.line_setLine_self, conds]
      exact lines i
    · rw [State.line_setLine_ne _ _ e]
      exact lines j
  pool := State.poolSound_of_eq rfl rfl rfl rfl rfl rfl rfl
  since n r h := ⟨r, h, le_rfl⟩

theorem onLine {i : Fin 4} {f : Line → Line} (conds : (f (s.line i)).conds = (s.line i).conds) :
    s.Keeps (s.onLine i f) := setLine conds

/-- The objects changed: their numbers in order and in range, their condition sets in class order, and each record one
that stood before with a state-since date no later. -/
theorem setObjects {objects : Store ObjectRec} (sorted : s.objects.Sorted → objects.Sorted)
    (entries : ∀ e ∈ objects, ∃ r₀, (e.1, r₀) ∈ s.objects ∧ (r₀.conds.Ordered → e.2.conds.Ordered))
    (since : ∀ n r, objects.get n = some r → ∃ r₀, s.objects.get n = some r₀ ∧ r₀.since.ms ≤ r.since.ms) :
    s.Keeps { s with objects := objects } where
  settings := id
  timeBase := id
  elapsed := le_rfl
  queues := id
  stores h := by
    obtain ⟨order, paths, numbers, tb, links, lines, conds, pathConds⟩ := h
    refine ⟨sorted order, paths, fun e mem => ?_, tb, links, lines, fun e mem => ?_, pathConds⟩
    · obtain ⟨r₀, stood, -⟩ := entries e mem
      exact numbers (e.1, r₀) stood
    · obtain ⟨r₀, stood, ordered⟩ := entries e mem
      exact ordered (conds _ stood)
  pool := State.poolSound_of_eq rfl rfl rfl rfl rfl rfl rfl
  since := since

/-- The record of an object changed, its state-since date no earlier. -/
theorem setObject {r r' : ObjectRec} (stored : s.object n = some r) (since : r.since.ms ≤ r'.since.ms)
    (conds : r.conds.Ordered → r'.conds.Ordered) : s.Keeps (s.setObject n r') := by
  refine setObjects (fun sorted => Store.sorted_set sorted n r') (fun e mem => ?_) fun k x h => ?_
  · obtain rfl | mem := Store.mem_set mem
    · exact ⟨r, Store.mem_of_get stored, conds⟩
    · exact ⟨e.2, mem, id⟩
  · rw [Store.get_set] at h
    split at h
    · next e =>
      subst e
      obtain rfl := Option.some.inj h
      exact ⟨r, stored, since⟩
    · exact ⟨x, h, le_rfl⟩

theorem onObject {f : ObjectRec → ObjectRec} (since : ∀ r, s.object n = some r → r.since.ms ≤ (f r).since.ms)
    (conds : ∀ r, s.object n = some r → r.conds.Ordered → (f r).conds.Ordered) : s.Keeps (s.onObject n f) := by
  unfold State.onObject
  split
  · exact setObject ‹_› (since _ ‹_›) (conds _ ‹_›)
  · exact refl s

/-- Every record of an object changed in place, but for its conditions and its state-since date. -/
theorem mapObjects {f : ObjectRec → ObjectRec} (since : ∀ r, (f r).since = r.since) (conds : ∀ r, (f r).conds = r.conds) :
    s.Keeps { s with objects := s.objects.mapVals f } := by
  refine setObjects (fun sorted => Store.sorted_mapVals sorted f) (fun e mem => ?_) fun k x h => ?_
  · obtain ⟨e₀, mem₀, rfl⟩ := List.mem_map.mp mem
    exact ⟨e₀.2, mem₀, fun h => by rwa [conds]⟩
  · rw [Store.get_mapVals, Option.map_eq_some_iff] at h
    obtain ⟨r₀, h₀, rfl⟩ := h
    exact ⟨r₀, h₀, by rw [since]⟩

/-- The record of an object leaves the table. -/
theorem eraseObject : s.Keeps { s with objects := s.objects.erase n } := by
  refine setObjects (fun sorted => Store.sorted_erase sorted n) (fun e mem => ?_) fun k x h => ?_
  · exact ⟨e.2, (List.mem_filter.mp mem).1, id⟩
  · by_cases e : n = k
    · subst e
      rw [Store.get_erase_self] at h
      exact absurd h (by simp)
    · rw [Store.get_erase_ne _ e] at h
      exact ⟨x, h, le_rfl⟩

/-- The Path Store, the slot and the stored copy changed, with the pool's account kept. -/
theorem setStore {tc : TimetableChecker} {sl : ServiceLink} {saving : Option Snapshot} {copy : StoredCopy}
    (sorted : s.tc.paths.Sorted → tc.paths.Sorted)
    (conds : (∀ e ∈ s.tc.paths, e.2.conds.Ordered) → ∀ e ∈ tc.paths, e.2.conds.Ordered)
    (account : s.poolSound → ({ s with tc := tc, sl := sl, saving := saving, copy := copy } : State).poolSound) :
    s.Keeps { s with tc := tc, sl := sl, saving := saving, copy := copy } where
  settings := id
  timeBase := id
  elapsed := le_rfl
  queues := id
  stores h := by
    obtain ⟨objects, paths, numbers, tb, links, lines, objectConds, pathConds⟩ := h
    exact ⟨objects, sorted paths, numbers, tb, links, lines, objectConds, conds pathConds⟩
  pool := account
  since n r h := ⟨r, h, le_rfl⟩

end State.Keeps

/-! ### The Path Store's account (R86) -/

/-- The timing points of a store with one more path, or with the record of one replaced. -/
theorem Store.sum_set {paths : Store PathRec} (n : Nat) (p : PathRec) (sorted : paths.Sorted) :
    ((paths.set n p).map fun e => e.2.points.length).sum + ((paths.get n).map (·.points.length)).getD 0 =
      (paths.map fun e => e.2.points.length).sum + p.points.length := by
  induction paths with
  | nil => simp [Store.set, Store.get]
  | cons e t ih =>
    obtain ⟨k, q⟩ := e
    have later : ∀ x ∈ t, k < x.1 := (List.pairwise_cons.mp sorted).1
    have sorted' : Store.Sorted t := (List.pairwise_cons.mp sorted).2
    unfold Store.set
    split
    · next less =>
      have absent : Store.get ((k, q) :: t) n = none := by
        cases found : Store.get ((k, q) :: t) n with
        | none => rfl
        | some x =>
          have mem := Store.mem_of_get found
          rcases List.mem_cons.mp mem with e | e
          · have := congrArg Prod.fst e
            simp only at this
            omega
          · have := later _ e
            simp only at this
            omega
      rw [absent]
      simp
      omega
    · next ge =>
      split
      · next eq =>
        subst eq
        simp [Store.get]
        omega
      · next ne =>
        have step := ih sorted'
        rw [show Store.get ((k, q) :: t) n = Store.get t n by simp [Store.get, Ne.symm ne]]
        simp only [List.map_cons, List.sum_cons]
        omega

/-- The timing points of a store without one of its paths. -/
theorem Store.sum_erase {paths : Store PathRec} {n : Nat} {p : PathRec} (sorted : paths.Sorted)
    (stored : paths.get n = some p) :
    ((paths.erase n).map fun e => e.2.points.length).sum + p.points.length =
      (paths.map fun e => e.2.points.length).sum := by
  induction paths with
  | nil => simp [Store.get] at stored
  | cons e t ih =>
    obtain ⟨k, q⟩ := e
    have later : ∀ x ∈ t, k < x.1 := (List.pairwise_cons.mp sorted).1
    have sorted' : Store.Sorted t := (List.pairwise_cons.mp sorted).2
    by_cases eq : k = n
    · subst eq
      have others : Store.erase t k = t := List.filter_eq_self.mpr fun x mem => by
        have := later x mem
        simp
        omega
      have kept : Store.erase ((k, q) :: t) k = t := by
        rw [← others]
        simp [Store.erase]
      have : q = p := by simpa [Store.get] using stored
      subst this
      rw [kept]
      simp
      omega
    · have rest : Store.get t n = some p := by simpa [Store.get, eq] using stored
      have kept : Store.erase ((k, q) :: t) n = (k, q) :: Store.erase t n := by simp [Store.erase, eq]
      have step := ih sorted' rest
      rw [kept]
      simp only [List.map_cons, List.sum_cons]
      omega

variable {s : State} {n : Nat}

/-- With no REPEAT PATH in flight nothing is reserved. -/
theorem State.repeatSound_none (h : s.tc.repeatOp = none) : s.repeatSound ↔ s.tc.poolReserved = 0 := by
  simp only [State.repeatSound, h]

/-- What stands while a REPEAT PATH is in flight (R99). -/
theorem State.repeatSound_some {op : RepeatOp} (h : s.tc.repeatOp = some op) : s.repeatSound ↔
    1 ≤ op.next ∧ op.next ≤ op.count ∧
      (∃ p, s.path op.template = some p ∧ p.templateInUse = true ∧
        s.tc.poolReserved = (op.count + 1 - op.next) * p.points.length) ∧
      ∀ e ∈ s.tc.paths, op.first + (op.next - 1) ≤ e.1 → op.first + op.count ≤ e.1 := by
  simp only [State.repeatSound, h]

/-- A path written over a stored one with as many points leaves the count of stored points. -/
theorem State.storedPoints_setPath_stored {p p' : PathRec} (sorted : s.tc.paths.Sorted) (stored : s.path n = some p)
    (length : p'.points.length = p.points.length) : (s.setPath n p').storedPoints = s.storedPoints := by
  have sum := Store.sum_set n p' sorted
  rw [show s.tc.paths.get n = some p from stored] at sum
  simp only [Option.map_some, Option.getD_some] at sum
  simp only [State.storedPoints, State.setPath_tc]
  omega

/-- A path stored at a free number adds its points. -/
theorem State.storedPoints_setPath_new (p : PathRec) (sorted : s.tc.paths.Sorted) (free : s.path n = none) :
    (s.setPath n p).storedPoints = s.storedPoints + p.points.length := by
  have sum := Store.sum_set n p sorted
  rw [show s.tc.paths.get n = none from free] at sum
  simpa only [State.storedPoints, State.setPath_tc, Option.map_none, Option.getD_none, Nat.add_zero] using sum

/-- A condition set put into a store's path keeps every set of the store in order. -/
theorem Store.ordered_setPath {paths : Store PathRec} {p : PathRec} (ordered : p.conds.Ordered)
    (h : ∀ e ∈ paths, e.2.conds.Ordered) : ∀ e ∈ paths.set n p, e.2.conds.Ordered := fun e mem => by
  obtain rfl | mem := Store.mem_set mem
  · exact ordered
  · exact h e mem

/-- The store without a path, its entries given back to the free ones (R96). -/
def State.withoutPath (s : State) (n : Nat) (p : PathRec) : State :=
  { s with tc := { s.tc with paths := s.tc.paths.erase n, poolFree := s.tc.poolFree + p.points.length } }

/-- A retirement takes the path from the store, empties its watch slots and marks the plan as changed (R96). -/
theorem State.retirePath_eq (s : State) (n : Nat) (p : PathRec) :
    s.retirePath n p = ((s.withoutPath n p).unwatch (.path n)).disturb := rfl

/-- A record written over a stored path's, with as many points and, while a REPEAT PATH is in flight, the same template
mark, keeps the account. -/
theorem State.poolSound_setPath {p p' : PathRec} (stored : s.path n = some p)
    (length : p'.points.length = p.points.length)
    (template : s.tc.repeatOp = none ∨ p'.templateInUse = p.templateInUse) (h : s.poolSound) : (s.setPath n p').poolSound := by
  obtain ⟨sorted, account, repeats, slot⟩ := h
  refine ⟨Store.sorted_set sorted n p', ?_, ?_, slot⟩
  · rw [State.storedPoints_setPath_stored sorted stored length]
    exact account
  · cases op : s.tc.repeatOp with
    | none =>
      rw [State.repeatSound_none op] at repeats
      exact (State.repeatSound_none (s := s.setPath n p') op).mpr repeats
    | some o =>
      obtain ⟨low, high, ⟨q, kept, inUse, reserved⟩, free⟩ := (State.repeatSound_some op).mp repeats
      refine (State.repeatSound_some (s := s.setPath n p') op).mpr ⟨low, high, ?_, fun e mem => ?_⟩
      · by_cases same : n = o.template
        · subst same
          obtain rfl : p = q := Option.some.inj (stored.symm.trans kept)
          have same := template.resolve_left (by simp [op])
          exact ⟨p', State.path_setPath_self .., same.trans inUse, by rw [length]; exact reserved⟩
        · exact ⟨q, (State.path_setPath_ne _ _ same).trans kept, inUse, reserved⟩
      · obtain rfl | mem := Store.mem_set mem
        · exact free (n, p) (Store.mem_of_get stored)
        · exact free e mem

/-- A path stored at a number neither stored nor reserved, its entries taken from the free ones, keeps the account (R86). -/
theorem State.poolSound_storePath {p : PathRec} (untaken : s.taken n = false) (room : p.points.length ≤ s.tc.poolFree)
    (h : s.poolSound) : (s.storePath n p).poolSound := by
  obtain ⟨sorted, account, repeats, slot⟩ := h
  have free : ¬ (s.taken n = true) := by simp [untaken]
  rw [State.taken_iff, not_or] at free
  obtain ⟨unstored, unreserved⟩ := free
  have absent : s.path n = none := by simpa using unstored
  refine ⟨Store.sorted_set sorted n p, ?_, ?_, slot⟩
  · have points := State.storedPoints_setPath_new p sorted absent
    have same : (s.storePath n p).storedPoints = (s.setPath n p).storedPoints := rfl
    have less : (s.storePath n p).tc.poolFree = s.tc.poolFree - p.points.length := rfl
    have kept : (s.storePath n p).tc.poolReserved = s.tc.poolReserved := rfl
    omega
  · cases op : s.tc.repeatOp with
    | none =>
      rw [State.repeatSound_none op] at repeats
      exact (State.repeatSound_none (s := s.storePath n p) op).mpr repeats
    | some o =>
      obtain ⟨low, high, ⟨q, kept, inUse, reserved⟩, others⟩ := (State.repeatSound_some op).mp repeats
      refine (State.repeatSound_some (s := s.storePath n p) op).mpr ⟨low, high, ⟨q, ?_, inUse, reserved⟩, fun e mem => ?_⟩
      · have differs : n ≠ o.template := by
          rintro rfl
          exact absurd kept (by simp [absent])
        exact (State.path_setPath_ne _ _ differs).trans kept
      · obtain rfl | mem := Store.mem_set mem
        · intro le
          by_contra lt
          exact unreserved ⟨o, op, le, not_le.mp lt⟩
        · exact others e mem

/-- A path that is no template of a REPEAT PATH in flight leaves the store, its entries given back (R96). -/
theorem State.poolSound_erasePath {p : PathRec} (stored : s.path n = some p)
    (unused : s.tc.repeatOp = none ∨ p.templateInUse = false)
    (h : s.poolSound) : (s.withoutPath n p).poolSound := by
  obtain ⟨sorted, account, repeats, slot⟩ := h
  refine ⟨Store.sorted_erase sorted n, ?_, ?_, slot⟩
  · have points := Store.sum_erase sorted stored
    simp only [State.storedPoints, State.withoutPath] at account ⊢
    omega
  · cases op : s.tc.repeatOp with
    | none =>
      rw [State.repeatSound_none op] at repeats
      exact (State.repeatSound_none (s := s.withoutPath n p) op).mpr repeats
    | some o =>
      obtain ⟨low, high, ⟨q, kept, inUse, reserved⟩, others⟩ := (State.repeatSound_some op).mp repeats
      refine (State.repeatSound_some (s := s.withoutPath n p) op).mpr ⟨low, high, ⟨q, ?_, inUse, reserved⟩, fun e mem => ?_⟩
      · have differs : n ≠ o.template := by
          rintro rfl
          obtain rfl : p = q := Option.some.inj (stored.symm.trans kept)
          simp [unused.resolve_left (by simp [op])] at inUse
        exact (Store.get_erase_ne _ differs).trans kept
      · exact others e (List.mem_filter.mp mem).1

namespace State.Keeps

/-- The record of a stored path changed, its points as many and its template mark as it was. -/
theorem setPath {p p' : PathRec} (stored : s.path n = some p) (length : p'.points.length = p.points.length)
    (template : s.tc.repeatOp = none ∨ p'.templateInUse = p.templateInUse)
    (conds : p.conds.Ordered → p'.conds.Ordered) : s.Keeps (s.setPath n p') :=
  setStore (fun sorted => Store.sorted_set sorted n p')
    (fun ordered => Store.ordered_setPath (conds (ordered _ (Store.mem_of_get stored))) ordered)
    (State.poolSound_setPath stored length template)

theorem onPath {f : PathRec → PathRec} (length : ∀ p, (f p).points.length = p.points.length)
    (template : ∀ p, (f p).templateInUse = p.templateInUse)
    (conds : ∀ p, s.path n = some p → p.conds.Ordered → (f p).conds.Ordered) : s.Keeps (s.onPath n f) := by
  unfold State.onPath
  split
  · exact setPath ‹_› (length _) (.inr (template _)) (conds _ ‹_›)
  · exact refl s

theorem storePath {p : PathRec} (untaken : s.taken n = false) (room : p.points.length ≤ s.tc.poolFree)
    (conds : p.conds = []) : s.Keeps (s.storePath n p) :=
  setStore (fun sorted => Store.sorted_set sorted n p) (Store.ordered_setPath (conds ▸ CondSet.Ordered.nil))
    (State.poolSound_storePath untaken room)

/-! ### Reports of conditions (R153 to R157) -/

/-- A subject's condition set replaced by one in class order. -/
theorem setConds {x : Subject} {cs : CondSet} (ordered : (s.condsOf x).Ordered → cs.Ordered) :
    s.Keeps (s.setConds x cs) := by
  cases x with
  | timeBase =>
    exact ⟨id, id, le_rfl, id, fun ⟨objects, paths, numbers, conds⟩ => ⟨objects, paths, numbers,
      State.condsOrdered_setConds conds .timeBase (ordered (State.ordered_condsOf conds .timeBase))⟩,
      State.poolSound_of_eq rfl rfl rfl rfl rfl rfl rfl, fun n r h => ⟨r, h, le_rfl⟩⟩
  | link i =>
    refine ⟨id, id, le_rfl, fun h j => ?_, fun ⟨objects, paths, numbers, conds⟩ => ⟨objects, paths, numbers,
      State.condsOrdered_setConds conds (.link i) (ordered (State.ordered_condsOf conds (.link i)))⟩,
      State.poolSound_of_eq rfl rfl rfl rfl rfl rfl rfl, fun n r h => ⟨r, h, le_rfl⟩⟩
    rw [State.setConds_link]
    by_cases e : i = j
    · subst e
      rw [State.link_setLink_self]
      exact h i
    · rw [State.link_setLink_ne _ _ e]
      exact h j
  | line i =>
    exact ⟨id, id, le_rfl, id, fun ⟨objects, paths, numbers, conds⟩ => ⟨objects, paths, numbers,
      State.condsOrdered_setConds conds (.line i) (ordered (State.ordered_condsOf conds (.line i)))⟩,
      State.poolSound_of_eq rfl rfl rfl rfl rfl rfl rfl, fun n r h => ⟨r, h, le_rfl⟩⟩
  | object n =>
    refine .trans (t := s.onObject n fun r => { r with conds := cs }) ?_ aside
    exact onObject (fun _ _ => le_rfl) fun r stored h => ordered (by rwa [State.condsOf_object s stored])
  | path n =>
    refine .trans (t := s.onPath n fun p => { p with conds := cs }) ?_ aside
    exact onPath (fun _ => rfl) (fun _ => rfl) fun p stored h => ordered (by rwa [State.condsOf_path s stored])

theorem causeBegins {x : Subject} {c : Class} {d : Detail} : s.Keeps (s.causeBegins x c d) :=
  setConds fun h => h.begun ..

theorem beginCause {x : Subject} {c : Class} {d : Detail} : s.Keeps (s.beginCause x c d) :=
  ite (fun _ => refl s) fun _ => causeBegins

theorem endCause {x : Subject} {c : Class} : s.Keeps (s.endCause x c) :=
  ite (fun _ => setConds fun h => h.ended c) fun _ => refl s

theorem raiseMomentary {x : Subject} {c : Class} {d : Detail} : s.Keeps (s.raiseMomentary x c d) :=
  setConds fun h => h.raised ..

theorem acknowledge {x : Subject} {c : Class} : s.Keeps (s.acknowledge x c) :=
  setConds fun h => h.acknowledged c

theorem present {b : Bool} {x : Subject} {c : Class} {d : Detail} : s.Keeps (s.present b x c d) :=
  ite (fun _ => causeBegins) fun _ => endCause

/-- A run of changes over the four indexes. -/
theorem foldl {f : State → Fin 4 → State} (each : ∀ (u : State) i, u.Keeps (f u i)) (l : List (Fin 4)) (s : State) :
    s.Keeps (l.foldl f s) := by
  induction l generalizing s with
  | nil => exact refl s
  | cons i t ih => exact (each s i).trans (ih (f s i))

end State.Keeps

end Sys2Proof.Machine
end

section
/-! SUPPORT. The changes of the Time Base: each handling of a message, a pulse or an expiry keeps its record within the
ranges of Table 1-1 and leaves the elapsed count and the conditions as they are. -/

namespace Sys2Proof.Machine

/-! ### The numbers a field can hold (chapter 11) -/

theorem foldl_bytes_lt (bs : List Byte) (a : Nat) :
    bs.foldl (fun a b => a * 256 + b.toNat) a < (a + 1) * 256 ^ bs.length := by
  induction bs generalizing a with
  | nil => simp
  | cons b t ih =>
    calc (b :: t).foldl (fun a b => a * 256 + b.toNat) a
        < (a * 256 + b.toNat + 1) * 256 ^ t.length := ih _
      _ ≤ ((a + 1) * 256) * 256 ^ t.length := by
        have := b.isLt
        gcongr
        omega
      _ = (a + 1) * 256 ^ (b :: t).length := by rw [List.length_cons, pow_succ]; ring

theorem field_lt (body : List Byte) (offset width : Nat) : field body offset width < 256 ^ width := by
  have short : ((body.drop offset).take width).length ≤ width := by
    rw [List.length_take]
    exact min_le_left ..
  calc field body offset width < (0 + 1) * 256 ^ ((body.drop offset).take width).length := foldl_bytes_lt _ 0
    _ ≤ 256 ^ width := by
      rw [zero_add, one_mul]
      exact Nat.pow_le_pow_right (by decide) short

theorem field_two_le (body : List Byte) (offset : Nat) : field body offset 2 ≤ 65535 := by
  have := field_lt body offset 2
  omega

/-- A message in a complete run of bytes has its day and its second within the ranges of R4. -/
theorem refMessage_range {bytes : List Byte} {m : RefMsg} (h : refMessage bytes = some m) :
    m.day ≤ 65535 ∧ m.second ≤ 86399 := by
  simp only [refMessage] at h
  split at h
  · next ok =>
    obtain rfl := Option.some.inj h
    exact ⟨field_two_le .., ok.2⟩
  · exact absurd h (by simp)

/-- The reference time of a message within its ranges lies before the end of day 65,535. -/
theorem RefMsg.us_le {m : RefMsg} (h : m.day ≤ 65535 ∧ m.second ≤ 86399) : m.us ≤ 65536 * 86400000000 - 1 := by
  unfold RefMsg.us Config.usPerDay
  omega

/-- A change of the Time Base's record within its ranges, the elapsed count and the conditions left alone. -/
structure TimeBase.Kept (t u : TimeBase) : Prop where
  range : t.inRange → u.inRange
  elapsed : u.elapsed = t.elapsed
  conds : u.conds = t.conds

namespace TimeBase.Kept

variable {t u v : TimeBase}

theorem refl (t : TimeBase) : t.Kept t := ⟨id, rfl, rfl⟩

theorem trans (a : t.Kept u) (b : u.Kept v) : t.Kept v :=
  ⟨fun h => b.range (a.range h), b.elapsed.trans a.elapsed, b.conds.trans a.conds⟩

theorem ite {c : Prop} [Decidable c] (yes : c → t.Kept u) (no : ¬ c → t.Kept v) : t.Kept (if c then u else v) := by
  split
  · exact yes ‹_›
  · exact no ‹_›

/-- The record of a handling that depends on a test. -/
theorem ite_fst {c : Prop} [Decidable c] {a b : TimeBase × Bool} (yes : c → t.Kept a.1) (no : ¬ c → t.Kept b.1) :
    t.Kept (if c then a else b).1 := by
  split
  · exact yes ‹_›
  · exact no ‹_›

/-! ### The reference message (R4, R5, R188) -/

/-- A change of what the receiver of the reference message holds. -/
theorem refRx {x : Option RefRx} : t.Kept { t with refRx := x } := ⟨id, rfl, rfl⟩

/-- A held message whose day and second lie within the ranges of R4. -/
theorem hold {m : RefMsg} (day : m.day ≤ 65535) (second : m.second ≤ 86399) : t.Kept { t with heldMsg := some m } := by
  refine ⟨fun h => ?_, rfl, rfl⟩
  obtain ⟨trim, trim', residual, residual', good, outliers, station, fraction, slew, osc, -⟩ := h
  refine ⟨trim, trim', residual, residual', good, outliers, station, fraction, slew, osc, fun x held => ?_⟩
  obtain rfl := Option.some.inj held
  exact ⟨day, second⟩

theorem pair {m : RefMsg} (day : m.day ≤ 65535) (second : m.second ≤ 86399) : t.Kept (t.pair m) := by
  unfold TimeBase.pair
  split
  · exact hold day second
  · exact ite (fun _ => hold day second) fun _ => refl t


theorem refByte {b : Byte} : t.Kept (t.refByte b) := by
  unfold TimeBase.refByte
  split
  · exact ite (fun _ => refRx) fun _ => refl t
  · refine ite (fun _ => refRx) fun _ => ?_
    split
    · next m found => exact refRx.trans (pair (refMessage_range found).1 (refMessage_range found).2)
    · exact refRx

theorem refCharacter {b : Byte} : t.Kept (t.refCharacter b) :=
  ite (fun _ => (refRx (x := none)).trans refByte) fun _ => refByte

/-! ### The pulse (R6 to R10) -/

/-- What the pulses, the expiries and a restart change: station time, discipline, the counts, trim, residual, the timers
and the records of offsets, steps and pulses, each within its range. -/
theorem discipline {x : TimeBase} (elapsed : x.elapsed = t.elapsed) (conds : x.conds = t.conds)
    (trim : t.inRange → -50000 ≤ x.trim ∧ x.trim ≤ 50000)
    (residual : t.inRange → -500000 ≤ x.residual ∧ x.residual ≤ 500000)
    (counts : t.inRange → x.good ≤ 8 ∧ x.outliers ≤ 3)
    (station : t.inRange → x.stationUs ≤ 65536 * 86400000000 - 1)
    (carried : x.fraction = t.fraction ∧ x.slewPhase = t.slewPhase ∧ x.oscPhase = t.oscPhase)
    (held : x.heldMsg = none ∨ x.heldMsg = t.heldMsg) : t.Kept x := by
  refine ⟨fun h => ?_, elapsed, conds⟩
  obtain ⟨fraction, slew, osc⟩ := carried
  have range := h
  obtain ⟨-, -, -, -, -, -, -, fraction', slew', osc', held'⟩ := range
  refine ⟨(trim h).1, (trim h).2, (residual h).1, (residual h).2, (counts h).1, (counts h).2, station h, by omega,
    by omega, by omega, fun m found => ?_⟩
  obtain none | same := held
  · exact absurd found (by simp [none])
  · exact held' m (same ▸ found)

end TimeBase.Kept

namespace TimeBase

variable {t : TimeBase} {o : Int} {ref : Nat}

/-- The trim update is clamped to its range (R16). -/
theorem trimUpdate_range (trim o : Int) : -50000 ≤ trimUpdate trim o ∧ trimUpdate trim o ≤ 50000 := by
  rw [trimUpdate_eq]
  omega

/-- The trim, the station time and the two counts of a record within its ranges. -/
theorem trim_of_inRange (h : t.inRange) : -50000 ≤ t.trim ∧ t.trim ≤ 50000 := ⟨h.1, h.2.1⟩

theorem residual_of_inRange (h : t.inRange) : -500000 ≤ t.residual ∧ t.residual ≤ 500000 := ⟨h.2.2.1, h.2.2.2.1⟩

theorem counts_of_inRange (h : t.inRange) : t.good ≤ 8 ∧ t.outliers ≤ 3 := ⟨h.2.2.2.2.1, h.2.2.2.2.2.1⟩

theorem station_of_inRange (h : t.inRange) : t.stationUs ≤ 65536 * 86400000000 - 1 := h.2.2.2.2.2.2.1

/-- An offset that the lock band or the step threshold admits lies within the residual's range. -/
theorem residual_of_magnitude {bound : Nat} (small : magnitude o ≤ bound) (le : bound ≤ 500000) :
    -500000 ≤ o ∧ o ≤ 500000 := by
  unfold magnitude at small
  omega

theorem kept_stepTo (target : ref ≤ 65536 * 86400000000 - 1) : t.Kept (t.stepTo ref) :=
  .discipline rfl rfl trim_of_inRange (fun _ => by simp [stepTo]) counts_of_inRange (fun _ => target) ⟨rfl, rfl, rfl⟩
    (.inr rfl)

/-- A change of the residual to an admitted offset, of the discipline, of the two counts and of the holdover timer. -/
theorem kept_tracks {d : Discipline} {good outliers : Nat} {start : Option Nat} (offset : -500000 ≤ o ∧ o ≤ 500000)
    (low : t.inRange → good ≤ 8) (high : t.inRange → outliers ≤ 3) :
    t.Kept { t with residual := o, discipline := d, good := good, outliers := outliers, holdoverStart := start } :=
  .discipline rfl rfl trim_of_inRange (fun _ => offset) (fun h => ⟨low h, high h⟩) station_of_inRange ⟨rfl, rfl, rfl⟩
    (.inr rfl)

/-- A change of the discipline, of the two counts and of the holdover timer alone. -/
theorem kept_counts {d : Discipline} {good outliers : Nat} {start : Option Nat}
    (low : t.inRange → good ≤ 8) (high : t.inRange → outliers ≤ 3) :
    t.Kept { t with discipline := d, good := good, outliers := outliers, holdoverStart := start } :=
  .discipline rfl rfl trim_of_inRange residual_of_inRange (fun h => ⟨low h, high h⟩) station_of_inRange ⟨rfl, rfl, rfl⟩
    (.inr rfl)

theorem good_of_inRange (h : t.inRange) : t.good ≤ 8 := (counts_of_inRange h).1

theorem outliers_of_inRange (h : t.inRange) : t.outliers ≤ 3 := (counts_of_inRange h).2

theorem kept_acquirePulse (target : ref ≤ 65536 * 86400000000 - 1) : t.Kept (t.acquirePulse o ref).1 := by
  unfold acquirePulse
  refine .ite_fst (fun small => ?_) fun _ => .ite_fst (fun small => ?_) fun _ => ?_
  · have offset := residual_of_magnitude small (by decide)
    exact .ite_fst (fun _ => kept_tracks offset (fun _ => le_rfl) fun _ => Nat.zero_le _) fun few =>
      kept_tracks offset (fun _ => by omega) outliers_of_inRange
  · exact kept_tracks (residual_of_magnitude small (by decide)) (fun _ => Nat.zero_le _) outliers_of_inRange
  · exact (kept_stepTo target).trans (kept_counts (fun _ => Nat.zero_le _) outliers_of_inRange)

/-- A valid pulse by the discipline state keeps the record within its ranges (R7 to R10). -/
theorem kept_pulse (target : ref ≤ 65536 * 86400000000 - 1) : t.Kept (t.pulse o ref).1 := by
  cases d : t.discipline with
  | free =>
    rw [pulse_free o ref d]
    exact (kept_stepTo target).trans (kept_counts (fun _ => by omega) fun _ => Nat.zero_le _)
  | acquire =>
    rw [pulse_acquire o ref d]
    exact kept_acquirePulse target
  | locked =>
    rw [pulse_locked o ref d]
    refine .ite_fst (fun small => ?_) fun _ => .ite_fst (fun _ => ?_) fun few => ?_
    · exact .discipline rfl rfl (fun _ => trimUpdate_range ..) (fun _ => residual_of_magnitude small le_rfl)
        (fun h => ⟨good_of_inRange (t := t) h, Nat.zero_le _⟩) station_of_inRange ⟨rfl, rfl, rfl⟩ (.inr rfl)
    · exact (kept_stepTo target).trans (kept_counts (fun _ => Nat.zero_le _) fun _ => Nat.zero_le _)
    · exact kept_counts good_of_inRange fun _ => by omega
  | holdover =>
    rw [pulse_holdover o ref d]
    exact .trans (kept_counts (fun _ => Nat.zero_le _) outliers_of_inRange) (kept_acquirePulse target)
  | drift =>
    rw [pulse_drift o ref d]
    refine .ite_fst (fun _ => ?_) fun _ => .ite_fst (fun _ => ?_) fun small => ?_
    · exact kept_counts good_of_inRange fun _ => by omega
    · exact (kept_stepTo target).trans (kept_counts (fun _ => Nat.zero_le _) fun _ => Nat.zero_le _)
    · exact kept_tracks (residual_of_magnitude (not_lt.mp small) le_rfl) (fun _ => Nat.zero_le _) fun _ => Nat.zero_le _

/-- A change of the timers and of what is recorded of edges, offsets and pulses alone. -/
theorem kept_records {gap last edge : Option Nat} {offset : Option Int} : t.Kept
    { t with gapStart := gap, lastPulse := last, precedingEdge := edge, lastOffset := offset } :=
  ⟨id, rfl, rfl⟩

theorem kept_edge : t.Kept t.edge :=
  .discipline rfl rfl trim_of_inRange residual_of_inRange counts_of_inRange station_of_inRange ⟨rfl, rfl, rfl⟩ (.inl rfl)

theorem kept_takePulse (target : ref ≤ 65536 * 86400000000 - 1) : t.Kept (t.takePulse ref).1 :=
  (kept_records.trans (kept_pulse target)).trans kept_records

/-- Whatever its reference time, a pulse in ACQUIRE leaves the elapsed count and the conditions. -/
theorem frame_acquirePulse : (t.acquirePulse o ref).1.elapsed = t.elapsed ∧ (t.acquirePulse o ref).1.conds = t.conds := by
  unfold acquirePulse
  split_ifs <;> exact ⟨rfl, rfl⟩

/-- Whatever its reference time, a pulse leaves the elapsed count and the conditions. -/
theorem frame_pulse : (t.pulse o ref).1.elapsed = t.elapsed ∧ (t.pulse o ref).1.conds = t.conds := by
  unfold pulse
  cases t.discipline with
  | free => exact ⟨rfl, rfl⟩
  | acquire => exact frame_acquirePulse
  | locked => dsimp only; split_ifs <;> exact ⟨rfl, rfl⟩
  | holdover => exact frame_acquirePulse
  | drift => dsimp only; split_ifs <;> exact ⟨rfl, rfl⟩

/-- An edge whose held message gives the reference time of the pulse (R6). -/
theorem kept_ppsEdge {m : RefMsg} (held : t.heldMsg = some m) : t.Kept (t.edge.takePulse m.us).1 where
  range h := by
    have message := h
    obtain ⟨-, -, -, -, -, -, -, -, -, -, message⟩ := message
    exact (kept_takePulse (RefMsg.us_le (message m held))).range (kept_edge.range h)
  elapsed := frame_pulse.1
  conds := frame_pulse.2

/-! ### The expiries and a restart (R2, R11, R12, R24) -/

theorem kept_enterHoldover : t.Kept t.enterHoldover :=
  .discipline rfl rfl trim_of_inRange residual_of_inRange (fun _ => ⟨Nat.zero_le _, Nat.zero_le _⟩) station_of_inRange
    ⟨rfl, rfl, rfl⟩ (.inr rfl)

theorem kept_enterRangeHold : t.Kept t.enterRangeHold :=
  .discipline rfl rfl trim_of_inRange (fun _ => by simp [enterRangeHold]) counts_of_inRange station_of_inRange
    ⟨rfl, rfl, rfl⟩ (.inr rfl)

theorem kept_restarted : t.Kept t.restarted := by
  unfold restarted
  cases t.discipline <;>
    exact .discipline rfl rfl trim_of_inRange residual_of_inRange (fun _ => ⟨Nat.zero_le _, Nat.zero_le _⟩)
      station_of_inRange ⟨rfl, rfl, rfl⟩ (.inl rfl)

end TimeBase

/-! ### At the whole part -/

namespace State.Keeps

variable {s : State}

theorem onTb {tb : TimeBase} (kept : s.tb.Kept tb) : s.Keeps { s with tb := tb } :=
  setTimeBase kept.range kept.elapsed.ge kept.conds

theorem announceFrom {old : State} {stepped : Bool} : s.Keeps (s.announceFrom old stepped) :=
  ite (fun _ => aside) fun _ => ite (fun _ => refl s) fun _ => aside

theorem raiseStepped {stepped : Bool} {source : StepSource} : s.Keeps (s.raiseStepped stepped source) :=
  ite (fun _ => raiseMomentary) fun _ => refl s

theorem endReferenceCauses : s.Keeps s.endReferenceCauses :=
  ite (fun _ => endCause.trans endCause) fun _ => refl s

theorem beginReferenceLost : s.Keeps s.beginReferenceLost := beginCause

theorem beginHoldoverExpired : s.Keeps s.beginHoldoverExpired := beginCause

theorem validPulse {tb : TimeBase} {ref : Nat} (kept : s.tb.Kept (tb.takePulse ref).1) :
    s.Keeps (({ s with tb := tb } : State).validPulse ref) :=
  (onTb kept).trans ((announceFrom.trans raiseStepped).trans endReferenceCauses)

theorem ppsEdge : s.Keeps s.ppsEdge := by
  unfold State.ppsEdge
  split
  · next m held =>
    exact ite (fun _ => validPulse (TimeBase.kept_ppsEdge held)) fun _ => onTb TimeBase.kept_edge
  · exact onTb TimeBase.kept_edge

theorem referenceGap : s.Keeps s.referenceGap :=
  ite (fun _ => ((onTb TimeBase.kept_enterHoldover).trans announceFrom).trans beginReferenceLost) fun _ => refl s

theorem intoDrift : s.Keeps { s with tb := { s.tb with discipline := .drift } } :=
  onTb (TimeBase.kept_counts TimeBase.good_of_inRange TimeBase.outliers_of_inRange)

theorem holdoverLimit : s.Keeps s.holdoverLimit :=
  ite (fun _ => (intoDrift.trans announceFrom).trans beginHoldoverExpired) fun _ => refl s

theorem endOfRange : s.Keeps s.endOfRange :=
  ite (fun _ => ((onTb TimeBase.kept_enterRangeHold).trans announceFrom).trans
    (ite (fun _ => refl _) fun _ => beginReferenceLost.trans beginHoldoverExpired)) fun _ => refl s

theorem setTime {us : Nat} (target : us ≤ 65536 * 86400000000 - 1) : s.Keeps (s.setTime us) :=
  have kept : s.tb.Kept { s.tb.stepTo us with rangeHold := false } :=
    (TimeBase.kept_stepTo target).trans ⟨id, rfl, rfl⟩
  ((onTb kept).trans announceFrom).trans raiseStepped

theorem tick : s.Keeps s.tick := by
  refine setTimeBase TimeBase.inRange_tick ?_ ?_
  · unfold TimeBase.tick
    dsimp only
    split <;> exact Nat.le_add_right ..
  · unfold TimeBase.tick
    dsimp only
    split <;> rfl

/-- An event taken while RESTART_N is not held. -/
theorem whenRunning {f : State → State} (each : s.Keeps (f s)) : s.Keeps (s.whenRunning f) :=
  ite (fun _ => refl s) fun _ => each

theorem onTimeBase {f : TimeBase → TimeBase} (kept : s.tb.Kept (f s.tb)) : s.Keeps (s.onTimeBase f) :=
  whenRunning (onTb kept)

end State.Keeps

end Sys2Proof.Machine
end

section
/-! SUPPORT. The changes of the Link Receivers and of the Slave Clock Driver: a link's queue stays within its places with
a marker pending only when it is full, and a line changes in its own record alone. -/

namespace Sys2Proof.Machine

/-! ### The arrival queue (2.4, R30 to R33) -/

theorem Link.queueSound_placeMarker {l : Link} {m : GapMarker} (h : l.queueSound) : (l.placeMarker m).queueSound := by
  obtain ⟨places, pending⟩ := h
  by_cases room : l.queue.length < Config.queuePlaces
  · rw [Link.placeMarker, if_pos room]
    simp only [Config.queuePlaces] at room
    refine ⟨by simp; omega, fun some => ?_⟩
    have := pending some
    omega
  · rw [Link.placeMarker, if_neg room]
    simp only [Config.queuePlaces] at room
    exact ⟨places, fun _ => by dsimp only; omega⟩

theorem Link.queueSound_popped {l : Link} (h : l.queueSound) : l.popped.queueSound := by
  obtain ⟨places, pending⟩ := h
  unfold Link.popped
  split
  · next none => exact ⟨by simp; omega, fun some => absurd some (by simp [none])⟩
  · next m some =>
    have full := pending (by simp [some])
    exact ⟨by simp; omega, fun h => absurd h (by simp)⟩

/-- The queue and the pending marker of a link stand as they were when its gap begins. -/
theorem State.queue_enterGap (s : State) (i : Fin 4) (cause : GapCause) (start : StationQ) :
    ((s.enterGap i cause start).link i).queue = (s.link i).queue := by
  rw [State.enterGap, State.onLink, State.beginCause_link, State.link_setLink_self]

namespace State.Keeps

variable {s : State} {i : Fin 4}

/-! ### Links (chapter 2) -/

/-- A change of a link's record that leaves its queue, its pending marker and its conditions. -/
theorem onLinkFrame {f : Link → Link} (queue : (f (s.link i)).queue = (s.link i).queue := by rfl)
    (marker : (f (s.link i)).pendingMarker = (s.link i).pendingMarker := by rfl)
    (conds : (f (s.link i)).conds = (s.link i).conds := by rfl) : s.Keeps (s.onLink i f) :=
  onLink (fun h => by simpa only [Link.queueSound, queue, marker] using h) conds

theorem placeMarker {m : GapMarker} : s.Keeps (s.onLink i fun l => l.placeMarker m) := by
  refine onLink Link.queueSound_placeMarker ?_
  unfold Link.placeMarker
  split <;> rfl

theorem popped : s.Keeps (s.onLink i Link.popped) := by
  refine onLink Link.queueSound_popped ?_
  unfold Link.popped
  split <;> rfl

theorem linkFault {r : FaultRecord} : s.Keeps (s.linkFault i r) := by
  have captured : s.Keeps (s.onLink i fun l => l.capturing r) := by
    unfold Link.capturing
    cases capture : (s.link i).capture with
    | none => exact onLinkFrame (by simp [capture]) (by simp [capture]) (by simp [capture])
    | some x => exact onLinkFrame (by simp [capture]) (by simp [capture]) (by simp [capture])
  exact ite (fun _ => captured.trans raiseMomentary) fun _ => captured

theorem receiverFault {reason : FaultReason} {kind : Option Byte} {object : Option Nat} :
    s.Keeps (s.receiverFault i reason kind object) := linkFault

theorem enterGap {cause : GapCause} {start : StationQ} : s.Keeps (s.enterGap i cause start) :=
  (onLinkFrame (f := fun l => { l with state := .gap, silenceStart := none })).trans beginCause

theorem silence : s.Keeps (s.silence i) := ite (fun _ => enterGap.trans placeMarker) fun _ => refl s

theorem linkUp : s.Keeps (s.linkUp i) :=
  (onLinkFrame (f := fun l => { l with state := .up, silenceStart := some s.elapsed })).trans endCause

theorem heartbeat : s.Keeps (s.heartbeat i) := ite (fun _ => refl s) fun _ => linkUp

/-- A marker becomes pending at a full queue (R32). -/
theorem pendMarker {m : GapMarker} (full : Config.queuePlaces ≤ (s.link i).queue.length) :
    s.Keeps (s.onLink i fun l => { l with pendingMarker := some m }) :=
  onLink (fun ⟨places, _⟩ => ⟨places, fun _ => le_antisymm places full⟩) rfl



theorem overflow {before : Option StationQ} {t : Telegram} (full : Config.queuePlaces ≤ (s.link i).queue.length) :
    s.Keeps (s.overflow i before t) :=
  (enterGap.trans (pendMarker (by rwa [State.queue_enterGap]))).trans receiverFault

theorem accept {e : TelegramEntry} (room : (s.link i).queue.length < Config.queuePlaces)
    (clear : (s.link i).pendingMarker = none) : s.Keeps (s.accept i e) := by
  refine .trans (onLink (fun _ => ⟨?_, fun some => ?_⟩) rfl) linkUp
  · simp only [Config.queuePlaces] at room
    simp
    omega
  · exact absurd some (by simp [clear])

theorem enqueue {before : Option StationQ} {t : Telegram} {c : Content} : s.Keeps (s.enqueue i before t c) :=
  ite (fun _ => receiverFault) fun clear =>
    ite (fun room => accept room (by simpa using clear)) fun full => overflow (not_lt.mp full)

theorem validTelegram {t : Telegram} : s.Keeps (s.validTelegram i t) := by
  have dated : s.Keeps (s.onLink i fun l =>
    { l with lastValid := some ⟨s.stationMs - s.compensation i t.age, s.quality⟩ }) := onLinkFrame
  unfold State.validTelegram
  dsimp only
  split
  · exact dated.trans heartbeat
  · exact dated.trans enqueue

theorem telegramDone {bytes : List Byte} : s.Keeps (s.telegramDone i bytes) := by
  have hunting : s.Keeps (s.onLink i fun l => { l with framing := .hunting }) := onLinkFrame
  unfold State.telegramDone
  dsimp only
  split
  · exact hunting.trans receiverFault
  · exact hunting.trans validTelegram

theorem character {b : Byte} : s.Keeps (s.character i b) := by
  unfold State.character
  split
  · exact ite (fun _ => onLinkFrame) fun _ => refl s
  · exact ite (fun _ => onLinkFrame) fun _ => (onLinkFrame (f := fun l => { l with framing := .hunting })).trans receiverFault
  · exact ite (fun _ => onLinkFrame) fun _ => telegramDone

theorem abandonTelegram {bytes : List Byte} : s.Keeps (s.abandonTelegram i bytes) :=
  (onLinkFrame (f := fun l => { l with framing := .hunting })).trans receiverFault

theorem badCharacter : s.Keeps (s.badCharacter i) := by
  unfold State.badCharacter
  split
  · exact refl s
  · exact abandonTelegram

theorem interByteTimeout : s.Keeps (s.interByteTimeout i) := by
  unfold State.interByteTimeout
  split
  · exact refl s
  · exact ite (fun _ => abandonTelegram) fun _ => refl s

theorem whenReceiving {f : State → State} (each : s.Keeps (f s)) : s.Keeps (s.whenReceiving i f) :=
  whenRunning (ite (fun _ => each) fun _ => refl s)

theorem disableLink : s.Keeps (s.disableLink i) := by
  have quiet : s.Keeps (s.onLink i fun l => { l with framing := .hunting, silenceStart := none, state := .quiet }) :=
    onLinkFrame
  unfold State.disableLink
  dsimp only
  split
  · exact quiet.trans placeMarker
  · exact quiet.trans endCause
  · exact quiet

theorem enableLink : s.Keeps (s.enableLink i) := onLinkFrame

theorem presentLink : s.Keeps (s.presentLink i) := endCause

/-! ### Lines (chapter 7) -/

theorem evaluate : s.Keeps (s.evaluate i) := onLine rfl

theorem evaluateResting : s.Keeps (s.evaluateResting i) := ite (fun _ => evaluate) fun _ => refl s

theorem evaluateAll : s.Keeps s.evaluateAll := foldl (fun _ _ => evaluateResting) four s

theorem beginDialUnset {reason : UnsetReason} : s.Keeps (s.beginDialUnset i reason) := beginCause

theorem disableLine : s.Keeps (s.disableLine i) := ((onLine rfl).trans endCause).trans endCause

theorem enableLine : s.Keeps (s.enableLine i) :=
  ite (fun _ => (onLine (f := fun l => { l with enabled := true, state := .idle }) rfl).trans evaluate) fun _ =>
    (onLine (f := fun l => { l with enabled := true, state := .unset }) rfl).trans beginDialUnset

theorem changeKind {k : DialKind} : s.Keeps (s.changeKind i k) :=
  have changed := (onLine (f := fun l => l.rekinded k) rfl).trans endCause
  ite (fun _ => changed.trans beginDialUnset) fun _ => changed

theorem applyKind : s.Keeps (s.applyKind i) := ite (fun _ => refl s) fun _ => changeKind

theorem restAfter {rest : LineState} : s.Keeps (s.restAfter i rest) :=
  .trans (.trans (onLine (f := fun l => { l with state := rest }) rfl)
    (ite (fun _ => refl _) fun _ => disableLine)) applyKind

theorem lineEnableChanged : s.Keeps (s.lineEnableChanged i) :=
  ite (fun _ => ite (fun _ => refl s) fun _ => enableLine) fun _ => ite (fun _ => disableLine) fun _ => refl s

theorem dialKindChanged : s.Keeps (s.dialKindChanged i) := ite (fun _ => refl s) fun _ => applyKind

theorem cut {c : Impulse} {x : Sense} : s.Keeps (s.cut i c x) := beginCause.trans restAfter

theorem sense {x : Sense} : s.Keeps (s.sense i x) := by
  unfold State.sense
  split
  · have sensed : s.Keeps (s.onLine i fun l => { l with lastSense := some x }) := onLine rfl
    refine ite (fun _ => ?_) fun _ => refl s
    cases x with
    | normal => exact sensed.trans (onLine rfl)
    | opened => exact sensed.trans cut
    | short => exact sensed.trans cut
  · exact refl s

theorem complete : s.Keeps (s.complete i) := by
  unfold State.complete
  split
  · next c _ =>
    refine ite (fun _ => ((onLine (f := fun l => l.completed c) ?_).trans endCause).trans restAfter) fun _ => refl s
    unfold Line.completed
    split <;> rfl
  · exact refl s

theorem gapEnds : s.Keeps (s.gapEnds i) := ite (fun _ => evaluate) fun _ => refl s

theorem retry : s.Keeps (s.retry i) := by
  unfold State.retry
  split
  · refine ite (fun _ => ?_) fun _ => refl s
    split <;> exact onLine rfl
  · exact refl s

theorem scTakes : s.Keeps s.scTakes := by
  unfold State.scTakes
  split
  · exact .trans aside evaluateAll
  · exact refl s

theorem afterDialSet : s.Keeps (s.afterDialSet i) := by
  unfold State.afterDialSet
  split
  · exact endCause.trans evaluate
  · exact evaluate
  · exact evaluate
  all_goals exact refl s

theorem powerOnLine : s.Keeps (s.powerOnLine i) :=
  ite (fun _ => (onLine rfl).trans beginDialUnset) fun _ => onLine rfl

theorem resumeLine : s.Keeps (s.resumeLine i) := by
  have resumed : (s.Keeps (s.onLine i fun l =>
      let enabled := s.settings.lineEnable.get i
      let l := { l with enabled := enabled, state := if enabled then .idle else .off }
      if decide (s.settings.dialKind.get i ≠ (s.line i).kind) then l.rekinded (s.settings.dialKind.get i) else l)) := by
    refine onLine ?_
    dsimp only
    split <;> rfl
  refine ite (fun _ => (resumed.trans endCause).trans endCause) fun _ => ite (fun _ => ?_) fun _ => ?_
  · exact ((resumed.trans endCause).trans endCause).trans evaluate
  · exact ((resumed.trans endCause).trans (onLine (f := fun l => { l with state := .unset }) rfl)).trans causeBegins

end State.Keeps

end Sys2Proof.Machine
end

section
/-! SUPPORT. The changes of the Object Table: a record that is changed by an entry takes no earlier state-since date, and
its conditions change by the transitions of Table 8-1a alone. -/

namespace Sys2Proof.Machine

/-- The date of a change of state is raised to the record's state-since date (R54). -/
theorem ObjectRec.since_le_changeDate (r : ObjectRec) (e : TelegramEntry) : r.since.ms ≤ (r.changeDate e).ms :=
  le_max_right ..

/-- Whatever record stands at the number now was not changed after this record's state-since date. -/
structure State.NoLater (s : State) (n : Nat) (r : ObjectRec) : Prop where
  le : ∀ r₀, s.object n = some r₀ → r₀.since.ms ≤ r.since.ms

section NoLater

variable {s : State} {n : Nat} {r : ObjectRec}

theorem State.noLater_of (stored : s.object n = some r) : s.NoLater n r :=
  ⟨fun _ h => (Option.some.inj (stored.symm.trans h)) ▸ le_rfl⟩

/-- Clearing the stale flag leaves the state-since date. -/
theorem State.noLater_clearStale (stored : s.object n = some r) : (s.clearStale n r).NoLater n r := by
  obtain ⟨-, cleared, -⟩ := State.clearStale_spec stored
  exact ⟨fun r₀ h => (Option.some.inj (cleared.symm.trans h)) ▸ le_rfl⟩

/-- What a step does to its from-berth leaves the record of its to-berth (R76). -/
theorem State.object_leaveSource (s : State) (e : TelegramEntry) :
    (s.leaveSource e).object e.object = s.object e.object := by
  unfold State.leaveSource
  split
  · next f _ =>
    split
    · rfl
    · next differs =>
      split
      · next stored =>
        split
        · next kind =>
          obtain ⟨clears, cleared, -⟩ := State.clearStale_spec stored
          obtain ⟨vacates, -⟩ := State.vacate_spec _ e kind cleared _ rfl
          exact (clears.trans vacates).others e.object (Ne.symm differs)
        · rfl
      · rfl
  · rfl

end NoLater

namespace State.Keeps

variable {s : State} {n : Nat} {r : ObjectRec} {e : TelegramEntry}

/-! ### Writing a record (R54 to R58) -/

theorem setKind {k : KindRec} : s.Keeps (s.setKind n k) := onObject (fun _ _ => le_rfl) fun _ _ h => h

theorem changeRecord {k : KindRec} {date : Date} (later : ∀ r₀, s.object n = some r₀ → r₀.since.ms ≤ date.ms) :
    s.Keeps (s.changeRecord n date k) :=
  .trans (onObject (f := fun r => { r with since := date, kind := k }) later fun _ _ h => h) report

/-- A record changed at an entry's date. -/
theorem changedAt {k : KindRec} (stood : s.NoLater n r) : s.Keeps (s.changeRecord n (r.changeDate e) k) :=
  changeRecord fun r₀ h => (stood.le r₀ h).trans (r.since_le_changeDate e)

theorem indicated {changed : Bool} {k : KindRec} (stood : s.NoLater n r) :
    s.Keeps (s.indicated n changed (r.changeDate e) k) := ite (fun _ => changedAt stood) fun _ => setKind

theorem clearStale : s.Keeps (s.clearStale n r) :=
  ite (fun _ => (onObject (f := fun r => { r with stale := none }) (fun _ _ => le_rfl) fun _ _ h => h).trans report)
    fun _ => refl s

/-! ### Limit timers (R62) -/

theorem throwExpiry : s.Keeps (s.throwExpiry n) := by
  unfold State.throwExpiry
  split
  · split
    · exact ite (fun _ => setKind.trans beginCause) fun _ => refl s
    · exact refl s
  · exact refl s

theorem clearExpiry : s.Keeps (s.clearExpiry n) := by
  unfold State.clearExpiry
  split
  · split
    · exact ite (fun _ => setKind.trans beginCause) fun _ => refl s
    · exact refl s
  · exact refl s

/-! ### Points, signals and berths (R63 to R80) -/

theorem pointCmd {p : PointRec} {q : Pos} : s.Keeps (s.pointCmd n r p q e) := by
  unfold State.pointCmd
  split
  · exact ite (fun _ => setKind) fun _ => setKind.trans throwExpiry
  · exact ite (fun _ => refl s) fun _ => (setKind.trans endCause).trans throwExpiry

theorem pointInd {p : PointRec} {d : Detected} (stood : s.NoLater n r) : s.Keeps (s.pointInd n r p d e) := by
  unfold State.pointInd
  dsimp only
  split
  · exact ite (fun _ => indicated stood) fun _ => (indicated stood).trans beginCause
  · split
    · exact ite (fun _ => ((indicated stood).trans endCause).trans endCause) fun _ =>
        ((indicated stood).trans raiseMomentary).trans endCause
    · exact ite (fun _ => ite (fun _ => ((changedAt stood).trans endCause).trans raiseMomentary) fun _ =>
        (changedAt stood).trans endCause) fun _ => refl s

theorem signalCmd {g : SignalRec} {q : Requested} : s.Keeps (s.signalCmd n r g q e) := by
  cases q with
  | off => exact ite (fun _ => setKind.trans clearExpiry) fun _ => setKind
  | stop => exact setKind.trans endCause
  | unknown => exact refl s

theorem signalProceeds {g : SignalRec} {a : Aspect} (stood : s.NoLater n r) : s.Keeps (s.signalProceeds n r g a e) := by
  unfold State.signalProceeds
  dsimp only
  cases g.clearing with
  | some c =>
    exact ite (fun _ => (((indicated stood).trans endCause).trans endCause).trans raiseMomentary) fun _ =>
      ((indicated stood).trans endCause).trans endCause
  | none =>
    exact ite (fun _ => ((indicated stood).trans endCause).trans raiseMomentary) fun _ => (indicated stood).trans endCause

theorem signalInd {g : SignalRec} {a : Aspect} (stood : s.NoLater n r) : s.Keeps (s.signalInd n r g a e) := by
  refine ite (fun _ => signalProceeds stood) fun _ => ?_
  split
  · exact (indicated stood).trans beginCause
  · exact (indicated stood).trans endCause

theorem endUnplanned {x : Headcode} : s.Keeps (s.endUnplanned n x) := by
  unfold State.endUnplanned
  split
  · split
    · exact ite (fun _ => endCause) fun _ => refl s
    · exact refl s
  · exact refl s

theorem vacate {b : BerthRec} (stood : s.NoLater n r) : s.Keeps (s.vacate n r b e) := by
  unfold State.vacate
  dsimp only
  split
  · exact ((changedAt stood).trans endUnplanned).trans hand
  · exact refl s
  · exact changedAt stood

theorem occupy {b : BerthRec} {h : Headcode} (stood : s.NoLater n r) : s.Keeps (s.occupy n r b h e) := by
  unfold State.occupy
  dsimp only
  split
  · exact ite (fun _ => refl s) fun _ => (((changedAt stood).trans endUnplanned).trans hand).trans hand
  · exact (changedAt stood).trans hand
  · exact (changedAt stood).trans hand

/-! ### Serving an entry (R52, R61) -/

theorem leaveSource : s.Keeps (s.leaveSource e) := by
  unfold State.leaveSource
  split
  · refine ite (fun _ => refl s) fun _ => ?_
    split
    · next stored =>
      split
      · exact clearStale.trans (vacate (State.noLater_clearStale stored))
      · exact refl s
    · exact refl s
  · exact refl s

theorem applyEntry : s.Keeps (s.applyEntry e) := by
  unfold State.applyEntry
  dsimp only
  split
  · exact refl s
  · next r stored =>
    have stood := State.noLater_clearStale stored
    split
    · exact pointCmd
    · exact clearStale.trans (pointInd stood)
    · exact signalCmd
    · exact clearStale.trans (signalInd stood)
    · exact (leaveSource.trans clearStale).trans
        (occupy (State.noLater_clearStale ((State.object_leaveSource s e).trans stored)))
    · exact clearStale.trans (vacate stood)
    · exact refl s

theorem serveEntry : s.Keeps (s.serveEntry e) := by
  unfold State.serveEntry
  split
  · exact linkFault
  · exact applyEntry

theorem takeTelegram {i : Fin 4} : s.Keeps (s.takeTelegram i) := by
  unfold State.takeTelegram
  split
  · exact popped.trans serveEntry
  · exact refl s
  · exact refl s

theorem markStale {i : Fin 4} {start : StationQ} : s.Keeps (s.markStale i start) := by
  refine .trans (t := { s with objects := s.objects.mapVals (ObjectRec.markStale i start) }) ?_ aside
  refine mapObjects (fun r => ?_) fun r => ?_ <;> (unfold ObjectRec.markStale; split <;> rfl)

theorem takeMarker {i : Fin 4} : s.Keeps (s.takeMarker i) := by
  unfold State.takeMarker
  split
  · exact popped.trans markStale
  · exact refl s
  · exact refl s

/-! ### Unmatched answers (R80) -/

theorem unmatched {a : Answer} : s.Keeps (s.unmatched a) := by
  unfold State.unmatched
  split
  · exact refl s
  · split
    · exact ite (fun _ => beginCause) fun _ => causeBegins.trans endCause
    · exact refl s
    · exact refl s

theorem takeAnswer : s.Keeps s.takeAnswer := by
  unfold State.takeAnswer
  split
  · exact .trans aside unmatched
  · exact refl s

/-! ### The requests of the table (R46 to R48) -/

theorem amendObject {a : Amendment} (stored : s.object n = some r) : s.Keeps (s.amendObject n r a) := by
  unfold State.amendObject
  dsimp only
  split
  · refine .trans (.trans (setObject stored ?_ fun _ => CondSet.Ordered.nil) report) dropAnswers
    unfold ObjectRec.reborn
    dsimp only
    split
    · exact le_rfl
    · next later => exact not_lt.mp later
  · have adjusted := setObject (r' := { r with link := a.link.getD r.link, kind := a.adjusted r.kind }) stored le_rfl id
    exact ite (fun _ => (adjusted.trans throwExpiry).trans clearExpiry) fun _ => adjusted

theorem retireObject : s.Keeps (s.retireObject n) := .trans (.trans eraseObject unwatch) dropAnswers

/-! ### Expectations (R114, R115) -/

theorem onQueue {f : List Expectation → List Expectation} : s.Keeps (s.onObject n (ObjectRec.onQueue f)) := by
  refine onObject (fun r _ => ?_) fun r _ => ?_
  · unfold ObjectRec.onQueue
    split <;> exact le_rfl
  · unfold ObjectRec.onQueue
    split <;> exact id

theorem armNext {p : PathRec} : s.Keeps (s.armNext n p) := by
  have arms : ∀ (u : State) (k : Nat), u.Keeps (u.armPoint n p k) := fun u k => by
    unfold State.armPoint
    split
    · exact onQueue
    · exact refl u
  exact (arms s _).trans (arms _ _)

theorem disarm : s.Keeps (s.disarm n) := by
  refine mapObjects (fun r => ?_) fun r => ?_ <;> (unfold ObjectRec.onQueue; split <;> rfl)

end State.Keeps

end Sys2Proof.Machine
end

section
/-! SUPPORT. The changes of the Path Store: the pool's account is kept by every storing, retirement and copy, and each long
operation leaves the slot in flight until it ends. -/

namespace Sys2Proof.Machine

/-! ### What of a path's record a change leaves -/

theorem State.reactivated_eq (s : State) (p : PathRec) : ∃ activation, s.reactivated p = { p with activation := activation } := by
  unfold State.reactivated
  split
  · exact ⟨_, rfl⟩
  · exact ⟨p.activation, rfl⟩

theorem State.newPath_points (s : State) (headcode : Headcode) (day : Nat) (plans : List Plan) :
    (s.newPath headcode day plans).points = plans.map fun p => ⟨p, none⟩ := by
  obtain ⟨a, eq⟩ := s.reactivated_eq ⟨headcode, day, .loaded, 0, plans.map fun p => ⟨p, none⟩, 0, 0, none, none, none, [],
    false, false⟩
  rw [State.newPath, eq]

theorem State.newPath_conds (s : State) (headcode : Headcode) (day : Nat) (plans : List Plan) :
    (s.newPath headcode day plans).conds = [] := by
  obtain ⟨a, eq⟩ := s.reactivated_eq ⟨headcode, day, .loaded, 0, plans.map fun p => ⟨p, none⟩, 0, 0, none, none, none, [],
    false, false⟩
  rw [State.newPath, eq]

/-- The pass of a point writes outcomes, the carried base, the last deviation and the passed count. -/
theorem PathRec.passedAt_eq (p : PathRec) (k : Nat) (o : OutcomePart) : ∃ points passed carried last,
    points.length = p.points.length ∧
      p.passedAt k o = { p with points := points, passed := passed, carried := carried, lastDeviation := last } := by
  unfold PathRec.passedAt PathRec.carrying PathRec.withOutcome PathRec.skipTo PathRec.withOutcome
  split <;> split <;> exact ⟨_, _, _, _, by simp, rfl⟩

/-- The due head of the activation list is a stored path. -/
theorem State.path_of_dueActivation {s : State} {n : Nat} {p : PathRec} (h : s.dueActivation = some (n, p)) :
    s.path n = some p := by
  unfold State.dueActivation at h
  split at h
  · split at h
    · obtain ⟨q, stored, eq⟩ := Option.map_eq_some_iff.mp h
      cases eq
      exact stored
    · exact absurd h (by simp)
  · exact absurd h (by simp)

/-- The due head of the deadline list is a stored path. -/
theorem State.path_of_dueDeadline {s : State} {stage : Stage} {n : Nat} {p : PathRec}
    (h : s.dueDeadline stage = some (n, p)) : s.path n = some p := by
  unfold State.dueDeadline at h
  split at h
  · split at h
    · next stored =>
      split at h
      · cases h
        exact stored
      · exact absurd h (by simp)
    · exact absurd h (by simp)
  · exact absurd h (by simp)

namespace State.Keeps

variable {s : State} {n : Nat} {p : PathRec}

/-! ### Paths (R90 to R97, R116 to R120) -/

/-- A change of a stored path's record that leaves its number of points, its template mark and its conditions. -/
theorem setPathFrame {p' : PathRec} (stored : s.path n = some p) (length : p'.points.length = p.points.length := by rfl)
    (template : p'.templateInUse = p.templateInUse := by rfl) (conds : p'.conds = p.conds := by rfl) :
    s.Keeps (s.setPath n p') := setPath stored length (.inr template) fun h => by rwa [conds]

theorem disturb : s.Keeps s.disturb := by
  refine setStore id id fun h => ?_
  simpa only [State.poolSound, State.storedPoints, State.repeatSound, State.slotSound, State.path, Option.isSome_map] using h

theorem retirePath (stored : s.path n = some p) (unused : s.tc.repeatOp = none ∨ p.templateInUse = false) :
    s.Keeps (s.retirePath n p) := by
  refine .trans (.trans (t := s.withoutPath n p) ?_ unwatch) disturb
  exact setStore (fun sorted => Store.sorted_erase sorted n) (fun h e mem => h e (List.mem_filter.mp mem).1)
    (State.poolSound_erasePath stored unused)

theorem activate (stored : s.path n = some p) : s.Keeps (s.activate n p) :=
  ((setPathFrame stored).trans report).trans armNext

theorem armIfDue : s.Keeps (s.armIfDue n) := by
  unfold State.armIfDue
  split
  · exact ite (fun _ => activate ‹_›) fun _ => refl s
  · exact refl s

theorem overdue (stored : s.path n = some p) : s.Keeps (s.overdue n p) := by
  unfold State.overdue
  split
  · exact (setPathFrame stored).trans beginCause
  · exact refl s

theorem renewOverdue : s.Keeps (s.renewOverdue n) := by
  unfold State.renewOverdue
  dsimp only
  split
  · exact ite (fun _ => endCause.trans (overdue ‹_›)) fun _ => endCause
  · exact endCause

theorem endPath {st : PathState} {date : Date} (stored : s.path n = some p) : s.Keeps (s.endPath n p st date) :=
  (((setPathFrame stored).trans report).trans disarm).trans endCause

theorem loadPath {headcode : Headcode} {day : Nat} {plans : List Plan} (untaken : s.taken n = false)
    (room : plans.length ≤ s.tc.poolFree) : s.Keeps (s.loadPath n headcode day plans) := by
  refine ((storePath untaken ?_ (State.newPath_conds ..)).trans disturb).trans armIfDue
  rwa [State.newPath_points, List.length_map]

theorem amendPoint {index : Nat} {plan : Plan} (stored : s.path n = some p) : s.Keeps (s.amendPoint n p index plan) := by
  obtain ⟨a, eq⟩ := s.reactivated_eq (p.replan index plan)
  unfold State.amendPoint
  dsimp only
  rw [eq]
  exact ite (fun _ => ((setPathFrame stored (by exact List.length_modify ..)).trans disturb).trans armIfDue) fun _ =>
    (setPathFrame stored (by exact List.length_modify ..)).trans disturb

theorem shiftPath {delta : Int} (stored : s.path n = some p) : s.Keeps (s.shiftPath n p delta) := by
  have length : (p.shift delta).points.length = p.points.length := by simp [PathRec.shift]; omega
  obtain ⟨a, eq⟩ := s.reactivated_eq (p.shift delta)
  unfold State.shiftPath
  dsimp only
  rw [eq]
  exact ite (fun _ => ((setPathFrame stored (by exact length)).trans disturb).trans armIfDue) fun _ =>
    ((setPathFrame stored (by exact length)).trans disturb).trans renewOverdue

/-! ### The services of the two lists (R113, R116, R118, R119, R97) -/

theorem tcTakes : s.Keeps s.tcTakes := by
  unfold State.tcTakes
  split
  · exact aside
  · exact refl s

theorem serveActivation : s.Keeps s.serveActivation := by
  unfold State.serveActivation
  split
  · exact activate (State.path_of_dueActivation ‹_›)
  · exact refl s

theorem serveOverdue : s.Keeps s.serveOverdue := by
  unfold State.serveOverdue
  split
  · exact overdue (State.path_of_dueDeadline ‹_›)
  · exact refl s

theorem serveLost : s.Keeps s.serveLost := by
  unfold State.serveLost
  split
  · exact (endPath (State.path_of_dueDeadline ‹_›)).trans raiseMomentary
  · exact refl s

theorem autoRetire (stored : s.path n = some p) : s.Keeps (s.autoRetire n p) :=
  ite (fun _ => setPathFrame stored) fun unused => retirePath stored (.inr (by simpa using unused))

theorem serveRetire : s.Keeps s.serveRetire := by
  unfold State.serveRetire
  split
  · exact autoRetire (State.path_of_dueDeadline ‹_›)
  · exact refl s

/-! ### Berth events (R122 to R131) -/

theorem runOn (stored : s.path n = some p) : s.Keeps (s.runOn n p) :=
  ((((setPathFrame stored).trans report).trans disarm).trans armNext).trans renewOverdue

theorem moveOn {date : Date} : s.Keeps (s.moveOn n date) := by
  unfold State.moveOn
  split
  · exact ite (fun _ => endPath ‹_›) fun _ => runOn ‹_›
  · exact refl s

theorem raiseSkipped {k : Nat} : s.Keeps (s.raiseSkipped n k p) := ite (fun _ => raiseMomentary) fun _ => refl s

theorem raiseJudged {k : Nat} {o : OutcomePart} : s.Keeps (s.raiseJudged n k o) := by
  unfold State.raiseJudged
  split
  · exact raiseMomentary
  · exact raiseMomentary
  · exact refl s

theorem raiseWrongRoute {k : Nat} {w : Option (RouteCheck × Detected × Bool)} : s.Keeps (s.raiseWrongRoute n k w) := by
  unfold State.raiseWrongRoute
  split
  · exact raiseMomentary
  · exact refl s

theorem passPoint {k : Nat} {t : Plan} {date : Date} (stored : s.path n = some p) : s.Keeps (s.passPoint n p k t date) := by
  unfold State.passPoint
  obtain ⟨points, passed, carried, last, length, eq⟩ :=
    p.passedAt_eq k (passOutcome p.day t date (s.wrongRouteOf t).isSome)
  dsimp only
  rw [eq]
  exact ((((setPathFrame stored (by exact length)).trans raiseSkipped).trans raiseJudged).trans raiseWrongRoute).trans moveOn

theorem berthEvent {ev : BerthEvent} : s.Keeps (s.berthEvent ev) := by
  unfold State.berthEvent
  split
  · unfold State.matched
    split
    · split
      · exact passPoint ‹_›
      · exact refl s
    · exact refl s
  · unfold State.answerUnmatched
    split
    · exact aside
    · exact refl s
    · exact refl s

theorem takeBerthEvent : s.Keeps s.takeBerthEvent := by
  unfold State.takeBerthEvent
  split
  · exact .trans aside berthEvent
  · exact refl s

end State.Keeps

end Sys2Proof.Machine
end

section
/-! SUPPORT. The long operations: each holds the slot in flight under its own kind from its acceptance to its end, and
REPEAT PATH's reservations are taken up copy by copy (R99 to R101, R106, R172, R173, R184). -/

namespace Sys2Proof.Machine

section Slot

variable {s : State}

/-- No long operation is in progress. -/
structure State.Idle (s : State) : Prop where
  repeatPath : s.tc.repeatOp = none
  digestPlan : s.tc.digest = none
  saveSettings : s.saving = none

/-- No long operation of a kind is in progress. -/
def State.idleOf (s : State) : LongOp → Prop
  | .repeatPath => s.tc.repeatOp = none
  | .digestPlan => s.tc.digest = none
  | .saveSettings => s.saving = none

/-- A kind other than the one that the slot shows in flight is not in progress. -/
theorem State.idle_of_inFlight {kind : LongOp} {tag : Byte} {date : Date} (h : s.slotSound)
    (slot : s.sl.slot = .inFlight kind tag date) {other : LongOp} (differs : other ≠ kind) : s.idleOf other := by
  obtain ⟨repeats, digests, saves⟩ := h
  cases other with
  | repeatPath =>
    by_contra running
    obtain ⟨_, _, eq⟩ := repeats (Option.isSome_iff_ne_none.mpr running)
    exact differs (Slot.inFlight.inj (eq.symm.trans slot)).1
  | digestPlan =>
    by_contra running
    obtain ⟨_, _, eq⟩ := digests (Option.isSome_iff_ne_none.mpr running)
    exact differs (Slot.inFlight.inj (eq.symm.trans slot)).1
  | saveSettings =>
    by_contra running
    obtain ⟨_, _, eq⟩ := saves (Option.isSome_iff_ne_none.mpr running)
    exact differs (Slot.inFlight.inj (eq.symm.trans slot)).1

/-- With a slot that is not in flight no long operation is in progress. -/
theorem State.idle_of_not_busy (h : s.slotSound) (free : s.sl.slot.busy = false) : s.Idle := by
  obtain ⟨repeats, digests, saves⟩ := h
  refine ⟨?_, ?_, ?_⟩
  · by_contra running
    obtain ⟨_, _, eq⟩ := repeats (Option.isSome_iff_ne_none.mpr running)
    simp [eq, Slot.busy] at free
  · by_contra running
    obtain ⟨_, _, eq⟩ := digests (Option.isSome_iff_ne_none.mpr running)
    simp [eq, Slot.busy] at free
  · by_contra running
    obtain ⟨_, _, eq⟩ := saves (Option.isSome_iff_ne_none.mpr running)
    simp [eq, Slot.busy] at free

/-- With no long operation in progress any slot is sound. -/
theorem State.slotSound_of_idle (h : s.Idle) : s.slotSound :=
  ⟨by simp [h.repeatPath], by simp [h.digestPlan], by simp [h.saveSettings]⟩

/-- The slot is taken by a long request while none is in flight (R172). -/
theorem State.poolSound_slotAccepts {kind : LongOp} {tag : Byte} (free : s.sl.slot.busy = false) (h : s.poolSound) :
    (s.slotAccepts kind tag).poolSound := by
  obtain ⟨sorted, account, repeats, slot⟩ := h
  have idle := State.idle_of_not_busy slot free
  exact ⟨sorted, account, repeats, State.slotSound_of_idle ⟨idle.repeatPath, idle.digestPlan, idle.saveSettings⟩⟩

/-- The slot is completed once the operation of the kind it shows has ended (R173). -/
theorem State.poolSound_slotCompletes {status : Status} {result : LongResult}
    (ended : ∀ kind tag date, s.sl.slot = .inFlight kind tag date → s.idleOf kind) (h : s.poolSound) :
    (s.slotCompletes status result).poolSound := by
  unfold State.slotCompletes
  split
  · next kind tag date slot =>
    obtain ⟨sorted, account, repeats, sound⟩ := h
    have idle : ∀ other, s.idleOf other := fun other => by
      by_cases same : other = kind
      · exact same ▸ ended kind tag date slot
      · exact State.idle_of_inFlight sound slot same
    exact ⟨sorted, account, repeats,
      State.slotSound_of_idle ⟨idle .repeatPath, idle .digestPlan, idle .saveSettings⟩⟩
  · exact h
  · exact h

end Slot

section Digest

variable {s : State}

/-- The walker's record changed while the slot shows the digest in flight (R106). -/
theorem State.poolSound_digest {d : Option DigestWalk} {tag : Byte} {date : Date}
    (slot : s.sl.slot = .inFlight .digestPlan tag date) (h : s.poolSound) :
    ({ s with tc := { s.tc with digest := d } } : State).poolSound := by
  obtain ⟨sorted, account, repeats, repeating, -, saves⟩ := h
  exact ⟨sorted, account, repeats, repeating, fun _ => ⟨tag, date, slot⟩, saves⟩

theorem State.poolSound_digestComplete {d : DigestWalk} {tag : Byte} {date : Date}
    (slot : s.sl.slot = .inFlight .digestPlan tag date) (h : s.poolSound) : (s.digestComplete d).poolSound := by
  unfold State.digestComplete
  split
  · refine State.poolSound_slotCompletes (fun kind _ _ shown => ?_) (State.poolSound_digest slot h)
    obtain rfl : LongOp.digestPlan = kind := (Slot.inFlight.inj (slot.symm.trans shown)).1
    rfl
  · exact State.poolSound_digest slot h

end Digest

/-- A completion writes the slot alone. -/
theorem State.slotCompletes_eq (s : State) (status : Status) (result : LongResult) : ∃ slot,
    s.slotCompletes status result = { s with sl := { s.sl with slot := slot } } := by
  unfold State.slotCompletes
  split <;> exact ⟨_, rfl⟩

/-- A step of the walk writes the walker and the slot alone. -/
theorem State.digestComplete_eq (s : State) (d : DigestWalk) : ∃ walk slot,
    s.digestComplete d = { s with tc := { s.tc with digest := walk }, sl := { s.sl with slot := slot } } := by
  unfold State.digestComplete
  split
  · obtain ⟨slot, eq⟩ := ({ s with tc := { s.tc with digest := none } } : State).slotCompletes_eq .ok
      (.digest (crc32Final d.crc) d.paths d.points d.disturbed)
    exact ⟨none, slot, eq⟩
  · exact ⟨some d, s.sl.slot, rfl⟩

/-- The state with the next copy stored, its place and its entries no longer reserved, and the operation as given (R100). -/
def State.copyStored (s : State) (op : RepeatOp) (p : PathRec) (next : Option RepeatOp) : State :=
  let s' := (s.setPath (op.first + (op.next - 1)) (s.copyOf op p)).withPool s.tc.poolFree
    (s.tc.poolReserved - p.points.length)
  { s' with tc := { s'.tc with repeatOp := next } }

theorem State.storeCopy_eq (s : State) (op : RepeatOp) (p : PathRec) : s.storeCopy op p =
    (s.copyStored op p (some { op with next := op.next + 1 })).armIfDue (op.first + (op.next - 1)) := rfl

section Frames

variable (s : State) (n : Nat)

/-- Arming changes the queues of berths alone. -/
theorem State.armNext_eq (p : PathRec) : s.armNext n p = { s with objects := (s.armNext n p).objects } := by
  have arms : ∀ (u : State) (k : Nat), u.armPoint n p k = { u with objects := (u.armPoint n p k).objects } := fun u k => by
    unfold State.armPoint State.expect State.onObject
    split
    · split <;> rfl
    · rfl
  rw [State.armNext, arms (s.armPoint n p p.passed), arms s]

/-- Which points are armed is decided by the table of objects alone. -/
theorem State.objects_armNext {t : State} (p : PathRec) (same : t.objects = s.objects) :
    (t.armNext n p).objects = (s.armNext n p).objects := by
  have arms : ∀ (u v : State) (k : Nat), v.objects = u.objects → (v.armPoint n p k).objects = (u.armPoint n p k).objects :=
    fun u v k eq => by
      unfold State.armPoint State.expect State.onObject State.object
      rw [eq]
      split
      · split <;> simp [eq]
      · exact eq
  exact arms _ _ _ (arms _ _ _ same)

/-- The Path Store plays no part in arming. -/
theorem State.armNext_withTc (tc : TimetableChecker) (p : PathRec) :
    ({ s with tc := tc } : State).armNext n p = { s.armNext n p with tc := tc } := by
  have objects := State.objects_armNext s n (t := { s with tc := tc }) p rfl
  calc ({ s with tc := tc } : State).armNext n p
      = { s with tc := tc, objects := (({ s with tc := tc } : State).armNext n p).objects } := State.armNext_eq ..
    _ = { s with tc := tc, objects := (s.armNext n p).objects } := by rw [objects]
    _ = { s.armNext n p with tc := tc } := by rw [State.armNext_eq s]

/-- The operation in flight plays no part in an immediate arming. -/
theorem State.armIfDue_withOp (next : Option RepeatOp) :
    ({ s with tc := { s.tc with repeatOp := next } } : State).armIfDue n =
      { s.armIfDue n with tc := { (s.armIfDue n).tc with repeatOp := next } } := by
  unfold State.armIfDue
  rw [show ({ s with tc := { s.tc with repeatOp := next } } : State).path n = s.path n from rfl]
  split
  · next p _ =>
    rw [show ({ s with tc := { s.tc with repeatOp := next } } : State).timeDue p.activation = s.timeDue p.activation from rfl]
    split
    · have arms := State.armNext_withTc ((s.setPath n { p with state := .armed, deadline := p.overdueDeadline }).report
        (.path n)) n
      calc (({ s with tc := { s.tc with repeatOp := next } } : State).activate n p)
          = _ := arms _ _
        _ = _ := by rw [State.activate, State.armNext_tc]; rfl
    · rfl
  · rfl

theorem State.armIfDue_sl : (s.armIfDue n).sl = s.sl := by
  unfold State.armIfDue State.activate
  split
  · split
    · rw [State.armNext_eq]
      rfl
    · rfl
  · rfl

theorem State.armIfDue_repeatOp : (s.armIfDue n).tc.repeatOp = s.tc.repeatOp := by
  unfold State.armIfDue State.activate
  split
  · split
    · rw [State.armNext_eq]
      rfl
    · rfl
  · rfl

theorem State.releaseTemplate_sl : (s.releaseTemplate n).sl = s.sl := by
  unfold State.releaseTemplate
  split
  · split <;> rfl
  · rfl

theorem State.releaseTemplate_repeatOp : (s.releaseTemplate n).tc.repeatOp = s.tc.repeatOp := by
  unfold State.releaseTemplate
  split
  · split <;> rfl
  · rfl

end Frames

namespace State.Keeps

variable {s t : State} {n : Nat}

/-- The slot, the walker, the operation in flight and the save change with the account kept, the paths as they stand. -/
theorem longOps (tb : t.tb = s.tb := by rfl) (settings : t.settings = s.settings := by rfl)
    (links : t.links = s.links := by rfl) (lines : t.sc.lines = s.sc.lines := by rfl)
    (objects : t.objects = s.objects := by rfl) (paths : t.tc.paths = s.tc.paths := by rfl)
    (account : s.poolSound → t.poolSound) : s.Keeps t where
  settings h := by rwa [settings]
  timeBase h := by rwa [tb]
  elapsed := by rw [tb]
  queues h := by simpa only [State.queuesSound, State.link, links] using h
  stores h := by
    simpa only [State.storesSound, State.condsOrdered, State.link, State.line, tb, links, lines, objects, paths] using h
  pool := account
  since n r h := ⟨r, by simpa only [State.object, objects] using h, le_rfl⟩

theorem slotAccepts {kind : LongOp} {tag : Byte} (free : s.sl.slot.busy = false) : s.Keeps (s.slotAccepts kind tag) :=
  longOps (account := State.poolSound_slotAccepts free)

/-- After a change that keeps the rest, the slot is completed with the account kept. -/
theorem completes {status : Status} {result : LongResult} (kept : s.Keeps t)
    (account : s.poolSound → (t.slotCompletes status result).poolSound) : s.Keeps (t.slotCompletes status result) := by
  obtain ⟨slot, eq⟩ := t.slotCompletes_eq status result
  rw [eq] at account ⊢
  exact { kept with pool := account }

theorem digestComplete {d : DigestWalk} (slot : s.poolSound → ∃ tag date, s.sl.slot = .inFlight .digestPlan tag date) :
    s.Keeps (s.digestComplete d) := by
  have account : s.poolSound → (s.digestComplete d).poolSound := fun h => by
    obtain ⟨tag, date, shown⟩ := slot h
    exact State.poolSound_digestComplete shown h
  obtain ⟨walk, slot, eq⟩ := s.digestComplete_eq d
  rw [eq] at account ⊢
  exact longOps (account := account)

theorem walkStep : s.Keeps s.walkStep := by
  unfold State.walkStep
  split
  · exact refl s
  · next running =>
    have slot : s.poolSound → ∃ tag date, s.sl.slot = .inFlight .digestPlan tag date :=
      fun ⟨_, _, _, _, digests, _⟩ => digests (by simp [running])
    split <;> exact digestComplete slot

theorem serveDigestPlan {tag : Byte} (free : s.sl.slot.busy = false) : s.Keeps (serveDigestPlan tag s).state :=
  (slotAccepts free).trans (digestComplete fun _ => ⟨tag, s.now, rfl⟩)

theorem serveSaveSettings {tag : Byte} (free : s.sl.slot.busy = false) : s.Keeps (serveSaveSettings tag s).state := by
  refine (slotAccepts (kind := .saveSettings) (tag := tag) free).trans (longOps (account := fun h => ?_))
  obtain ⟨sorted, account, repeats, repeating, digests, -⟩ := h
  exact ⟨sorted, account, repeats, repeating, digests, fun _ => ⟨tag, s.now, rfl⟩⟩

theorem saveEnds {agrees : Bool} : s.Keeps (s.saveEnds agrees) := by
  unfold State.saveEnds
  split
  · exact refl s
  · next snap saving =>
    have ended : ∀ copy : StoredCopy, s.Keeps { s with saving := none, copy := copy } := fun copy =>
      longOps (account := fun ⟨sorted, account, repeats, repeating, digests, _⟩ =>
        ⟨sorted, account, repeats, repeating, digests, fun some => absurd some (by simp)⟩)
    have shows : ∀ copy : StoredCopy, s.poolSound → ∀ kind tag date, s.sl.slot = .inFlight kind tag date →
        ({ s with saving := none, copy := copy } : State).idleOf kind := fun copy h kind tag date shown => by
      obtain ⟨-, -, -, -, -, saves⟩ := h
      obtain ⟨_, _, slot⟩ := saves (by simp [saving])
      obtain rfl : LongOp.saveSettings = kind := (Slot.inFlight.inj (slot.symm.trans shown)).1
      rfl
    exact ite
      (fun _ => completes (ended _) fun h => State.poolSound_slotCompletes (shows _ h) ((ended _).pool h))
      fun _ => completes (ended _) fun h => State.poolSound_slotCompletes (shows _ h) ((ended _).pool h)

/-! ### REPEAT PATH (R98 to R101) -/

theorem beginRepeat {tag : Byte} {op : RepeatOp} {p : PathRec} (free : s.sl.slot.busy = false)
    (stored : s.path op.template = some p) (begins : op.next = 1) (count : 1 ≤ op.count)
    (untaken : ∀ k, k < op.count → s.taken (op.first + k) = false)
    (room : op.count * p.points.length ≤ s.tc.poolFree) : s.Keeps (s.beginRepeat tag op p) := by
  refine setStore (fun sorted => Store.sorted_set sorted _ _)
    (fun ordered => Store.ordered_setPath (ordered _ (Store.mem_of_get stored)) ordered) fun h => ?_
  obtain ⟨sorted, account, repeats, slot⟩ := h
  have idle := State.idle_of_not_busy slot free
  have idleRepeat : s.tc.repeatOp = none := idle.repeatPath
  have nothing := (State.repeatSound_none idleRepeat).mp repeats
  have digests : s.tc.digest = none := idle.digestPlan
  have saves : s.saving = none := idle.saveSettings
  have points := State.storedPoints_setPath_stored (p' := { p with templateInUse := true }) sorted stored rfl
  refine ⟨Store.sorted_set sorted _ _, ?_, (State.repeatSound_some rfl).mpr ⟨begins.ge, by omega, ?_, fun e mem low => ?_⟩,
    fun _ => ⟨tag, s.now, rfl⟩, fun some => absurd some (by simp [digests]), fun some => absurd some (by simp [saves])⟩
  · simp only [State.storedPoints, State.setPath_tc, State.withPool] at points account ⊢
    omega
  · refine ⟨{ p with templateInUse := true }, State.path_setPath_self .., rfl, ?_⟩
    simp only [State.withPool, State.setPath_tc, begins, nothing]
    rw [zero_add, Nat.add_sub_cancel]
  · have stands : ∃ q, s.tc.paths.get e.1 = some q := by
      obtain rfl | mem := Store.mem_set mem
      · exact ⟨p, stored⟩
      · exact ⟨e.2, Store.get_of_mem sorted mem⟩
    obtain ⟨q, stands⟩ := stands
    rw [begins] at low
    by_contra beyond
    have free := untaken (e.1 - op.first) (by omega)
    rw [show op.first + (e.1 - op.first) = e.1 by omega] at free
    have taken := State.taken_iff.mpr (.inl (show (s.path e.1).isSome = true from Option.isSome_of_eq_some stands))
    exact absurd taken (by simp [free])

/-- The next copy is stored, its place and its entries no longer reserved, with copies left to create or none (R100). -/
theorem copyStored {op : RepeatOp} {p : PathRec} {next : Option RepeatOp} (running : s.tc.repeatOp = some op)
    (stored : s.path op.template = some p)
    (goesOn : next = some { op with next := op.next + 1 } ∧ op.next < op.count ∨ next = none ∧ op.count ≤ op.next) :
    s.Keeps (s.copyStored op p next) := by
  have length : (s.copyOf op p).points.length = p.points.length := by
    simp [State.copyOf, State.newPath_points, PathRec.plans]
  refine setStore (fun sorted => Store.sorted_set sorted _ _)
    (Store.ordered_setPath (by rw [State.copyOf, State.newPath_conds]; exact CondSet.Ordered.nil)) fun h => ?_
  obtain ⟨sorted, account, repeats, slot, digests, saves⟩ := h
  obtain ⟨low, high, ⟨q, kept, inUse, reserved⟩, others⟩ := (State.repeatSound_some running).mp repeats
  obtain rfl : p = q := Option.some.inj (stored.symm.trans kept)
  have untouched : ∀ k q, s.path k = some q → op.first + (op.next - 1) ≠ k := fun k q found eq => by
    have := others (k, q) (Store.mem_of_get found) eq.le
    simp only at this
    omega
  have free : s.path (op.first + (op.next - 1)) = none := by
    by_contra some
    obtain ⟨q, found⟩ := Option.ne_none_iff_exists'.mp some
    exact untouched _ q found rfl
  have points := State.storedPoints_setPath_new (s.copyOf op p) sorted free
  have left : s.tc.poolReserved - p.points.length = (op.count - op.next) * p.points.length := by
    rw [reserved, show op.count + 1 - op.next = op.count - op.next + 1 by omega, Nat.add_mul, one_mul, Nat.add_sub_cancel]
  have enough : p.points.length ≤ s.tc.poolReserved := by
    rw [reserved]
    exact Nat.le_mul_of_pos_left _ (by omega)
  refine ⟨Store.sorted_set sorted _ _, ?_, ?_, fun _ => slot (by simp [running]), digests, saves⟩
  · simp only [State.storedPoints, State.setPath_tc, State.withPool, length] at points account ⊢
    omega
  · obtain ⟨rfl, more⟩ | ⟨rfl, last⟩ := goesOn
    · refine (State.repeatSound_some rfl).mpr ⟨by dsimp only; omega, by exact more, ⟨p, ?_, inUse, ?_⟩, fun e mem => ?_⟩
      · exact (State.path_setPath_ne _ _ (untouched _ p stored)).trans stored
      · rw [show op.count + 1 - (op.next + 1) = op.count - op.next by omega]
        exact left
      · obtain rfl | mem := Store.mem_set mem
        · dsimp only
          omega
        · intro le
          exact others e mem (by dsimp only at le; omega)
    · refine (State.repeatSound_none rfl).mpr ?_
      rw [show op.count - op.next = 0 by omega, zero_mul] at left
      exact left

theorem releaseTemplate (ended : s.tc.repeatOp = none) : s.Keeps (s.releaseTemplate n) := by
  unfold State.releaseTemplate
  split
  · next stored =>
    exact ite (fun _ => retirePath stored (.inl ended)) fun _ => setPath stored rfl (.inl ended) id
  · exact refl s

theorem createCopy : s.Keeps s.createCopy := by
  unfold State.createCopy
  split
  · exact refl s
  · next op running =>
    split
    · exact refl s
    · next p stored =>
      refine ite (fun more => ?_) fun last => ?_
      · exact (copyStored running stored (.inl ⟨rfl, more⟩)).trans armIfDue
      · have arms : (s.storeCopy op p).endRepeat op = (((s.copyStored op p none).armIfDue
            (op.first + (op.next - 1))).releaseTemplate op.template).slotCompletes .ok (.copies op.count) := by
          rw [State.storeCopy_eq, State.endRepeat, ← State.armIfDue_withOp]
          rfl
        have ended : ((s.copyStored op p none).armIfDue (op.first + (op.next - 1))).tc.repeatOp = none :=
          State.armIfDue_repeatOp ..
        have kept := ((copyStored running stored (.inr ⟨rfl, not_lt.mp last⟩)).trans
          (armIfDue (n := op.first + (op.next - 1)))).trans (releaseTemplate (n := op.template) ended)
        rw [arms]
        refine completes kept fun h => State.poolSound_slotCompletes (fun kind tag date shown => ?_) (kept.pool h)
        obtain ⟨-, -, -, repeating, -⟩ := h
        obtain ⟨_, _, slot⟩ := repeating (by simp [running])
        rw [State.releaseTemplate_sl, State.armIfDue_sl] at shown
        obtain rfl : LongOp.repeatPath = kind := (Slot.inFlight.inj (slot.symm.trans shown)).1
        exact (State.releaseTemplate_repeatOp ..).trans ended

end State.Keeps

end Sys2Proof.Machine
end

section
/-! SUPPORT. What one command and one step can change: a command keeps what every step keeps, but for the power-on and for
the record that DEFINE OBJECT creates at an empty place. -/

namespace Sys2Proof.Machine

/-! ### Settings in range (R181, R182, R185) -/

theorem mem_settingPlaces {i : SettingItem} {n : Nat} : (i, n) ∈ settingPlaces ↔ n ∈ i.numbers := by
  have every : i ∈ SettingItem.all := by cases i <;> decide
  simp [settingPlaces, every]

/-- A value of an item's range written to one of its numbers leaves every setting in range. -/
theorem Settings.inRange_write {w : Settings} {i : SettingItem} {n : Nat} {v : Int} (number : n ∈ i.numbers)
    (range : i.inRange v = true) (h : w.inRange = true) : (w.write i n v).inRange = true := by
  refine List.all_eq_true.mpr fun p mem => ?_
  obtain ⟨j, k⟩ := p
  by_cases same : (j, k) = (i, n)
  · obtain ⟨rfl, rfl⟩ := Prod.mk.inj same
    rw [Settings.read_write_self w j k range]
    exact range
  · rw [Settings.read_write_ne w v number (mem_settingPlaces.mp mem) same]
    exact List.all_eq_true.mp h _ mem

theorem Settings.inRange_default : Settings.default.inRange = true := by decide

/-- An image loads with every value clamped to its range (R185). -/
theorem Settings.inRange_ofImage (im : List (BitVec 16)) : (Settings.ofImage im).inRange = true := by
  have run : ∀ (l : List ((SettingItem × Nat) × BitVec 16)) (w : Settings), (∀ e ∈ l, e.1 ∈ settingPlaces) →
      w.inRange = true →
      (l.foldl (fun w e => w.write e.1.1 e.1.2 (e.1.1.clamp e.2.toInt)) w).inRange = true := by
    intro l
    induction l with
    | nil => exact fun w _ h => h
    | cons e t ih =>
      intro w places h
      exact ih _ (fun x mem => places x (.tail _ mem)) (Settings.inRange_write
        (mem_settingPlaces.mp (places e (.head _))) (SettingItem.clamp_inRange ..) h)
  exact run _ _ (fun e mem => (List.of_mem_zip mem).1) Settings.inRange_default

theorem StoredCopy.inRange_load (c : StoredCopy) : c.load.1.inRange = true := by
  cases c with
  | blank => exact Settings.inRange_default
  | valid im check => exact Settings.inRange_ofImage im
  | invalid => exact Settings.inRange_default

/-! ### Resets (R23, R24, R166, R185) -/

namespace State.Keeps

variable {s t : State}

/-- The settings replaced by ones within their ranges, and what the invariants do not speak of. -/
theorem setSettings {w : Settings} {source : SettingsSource} {held : Bool} (range : s.settings.inRange = true → w.inRange = true) :
    s.Keeps { s with settings := w, source := source, held := held } :=
  ⟨range, id, le_rfl, id, id, State.poolSound_of_eq rfl rfl rfl rfl rfl rfl rfl, fun _ r h => ⟨r, h, le_rfl⟩⟩

theorem loadSettings : s.Keeps s.loadSettings := setSettings (held := s.held) fun _ => StoredCopy.inRange_load _

theorem restart : s.Keeps s.restart where
  settings := id
  timeBase := TimeBase.kept_restarted.range
  elapsed := TimeBase.kept_restarted.elapsed.ge
  queues _ i := by
    simp only [State.restart, State.link, Vec.get_map, Link.restarted]
    exact ⟨Nat.zero_le _, fun some => absurd some (by simp [Link.initial])⟩
  stores h := by
    obtain ⟨-, -, -, tb, links, lines, -⟩ := h
    refine ⟨List.Pairwise.nil, List.Pairwise.nil, fun e mem => absurd mem List.not_mem_nil, ?_, fun i => ?_, fun i => ?_,
      fun e mem => absurd mem List.not_mem_nil, fun e mem => absurd mem List.not_mem_nil⟩
    · rw [show s.restart.tb = s.tb.restarted from rfl, TimeBase.kept_restarted.conds]
      exact tb
    · have same : (s.restart.link i).conds = (s.link i).conds := by
        simp [State.restart, State.link, Link.restarted]
      exact same ▸ links i
    · have same : (s.restart.line i).conds = (s.line i).conds := by
        simp only [State.restart, State.line, Vec.get_map, Line.restarted]
        split
        · split <;> rfl
        all_goals rfl
      exact same ▸ lines i
  pool _ := ⟨List.Pairwise.nil, rfl, rfl, State.slotSound_of_idle ⟨rfl, rfl, rfl⟩⟩
  since n r h := absurd h (by simp [State.restart, State.object, Store.get])

theorem beginService : s.Keeps s.beginService := aside

theorem compareHoldover : s.Keeps s.compareHoldover := ite (fun _ => intoDrift.trans announceFrom) fun _ => refl s

theorem announceLoadedCivil {old : Settings} : s.Keeps (s.announceLoadedCivil old) :=
  ite (fun _ => refl s) fun _ => aside

theorem presentTimeBase : s.Keeps s.presentTimeBase := present.trans present

theorem release : s.Keeps s.release := by
  have loaded : s.Keeps ({ s with held := false } : State).loadSettings :=
    setSettings fun _ => StoredCopy.inRange_load _
  have timed := ((loaded.trans compareHoldover).trans (announceLoadedCivil (old := s.settings))).trans presentTimeBase
  have presented := timed.trans (foldl (f := State.presentLink) (fun _ _ => presentLink) four _)
  have resumed := presented.trans (foldl (f := State.resumeLine) (fun _ _ => resumeLine) four _)
  exact resumed.trans beginService

/-! ### Settings (Table 10-1) -/

theorem handOver {item : SettingItem} {n : Nat} : s.Keeps (s.handOver item n) := by
  cases item with
  | boundaryHour => exact aside
  | civilOffset => exact aside
  | holdoverLimit => exact holdoverLimit
  | linkEnable => exact ite (fun _ => enableLink) fun _ => disableLink
  | silenceLimit => exact silence
  | lineEnable => exact lineEnableChanged
  | dialKind => exact dialKindChanged
  | gap => exact gapEnds
  | holdWindow => exact evaluateResting
  | linkLatency | lostLimit | armingLead | retention | impulseWidth | classPriority | classLine | watchAttention =>
    exact refl s

theorem setSetting {item : SettingItem} {n : Nat} {v : Int} (number : n ∈ item.numbers) (range : item.inRange v = true) :
    s.Keeps (s.setSetting item n v) :=
  ite (fun _ => refl s) fun _ => (setSettings (held := s.held) (source := s.source)
    (Settings.inRange_write number range)).trans handOver

theorem serveSetSetting {body : List Byte} : s.Keeps (serveSetSetting body s).state := by
  unfold Machine.serveSetSetting
  dsimp only
  split
  · exact refl s
  · next item _ =>
    split
    · exact refl s
    · next number =>
      have listed : (byteAt body 1).toNat ∈ item.numbers := by simpa using number
      split
      · exact setSetting listed ‹_›
      · split
        · exact refl s
        · exact setSetting listed (SettingItem.clamp_inRange ..)

/-! ### The Service Link (chapter 9) -/

/-- The Service Link's own record changed, but for its slot. -/
theorem onServiceLink {sl : ServiceLink} (slot : sl.slot = s.sl.slot) : s.Keeps { s with sl := sl } := aside (slot := slot)

/-- A completion read is in no other way changed, and nothing else is read (R173). -/
theorem Slot.read_eq_inFlight {x : Slot} {kind : LongOp} {tag : Byte} {date : Date} :
    x = .inFlight kind tag date → x.read = .inFlight kind tag date := by
  rintro rfl
  rfl

theorem statusRead {taken : Slot} : s.Keeps (s.statusRead taken) := by
  unfold State.statusRead
  split
  · exact refl s
  · exact refl s
  · refine longOps (account := fun ⟨sorted, account, repeats, repeating, digests, saves⟩ => ⟨sorted, account, repeats,
      fun some => ?_, fun some => ?_, fun some => ?_⟩)
    · obtain ⟨tag, date, slot⟩ := repeating some
      exact ⟨tag, date, Slot.read_eq_inFlight slot⟩
    · obtain ⟨tag, date, slot⟩ := digests some
      exact ⟨tag, date, Slot.read_eq_inFlight slot⟩
    · obtain ⟨tag, date, slot⟩ := saves some
      exact ⟨tag, date, Slot.read_eq_inFlight slot⟩

theorem askNext {frame : Collected} {lost : Bool} {taken : Gathered} : s.Keeps (s.askNext frame lost taken) := by
  unfold State.askNext
  cases taken with
  | watch slots next =>
    simp only [Gathered.ask, State.askSlot]
    split
    · next eq =>
      split at eq
      · cases eq
        exact aside
      · exact absurd eq (by simp)
    · next eq =>
      split at eq
      · exact absurd eq (by simp)
      · cases eq
        exact aside
  | status items owner =>
    cases owner with
    | timeBase => exact statusRead.trans (onServiceLink rfl)
    | serviceLink | settingsStore | objectTable | pathStore | pool => exact aside

theorem serveInTurn {frame : Collected} {start : Gathered} : s.Keeps (s.serveInTurn frame start) := by
  unfold State.serveInTurn
  split
  · exact ite (fun _ => ite (fun _ => askNext) fun _ => aside) fun _ => refl s
  · exact ite (fun _ => askNext) fun _ => refl s
  all_goals exact refl s

theorem readOut {count : Nat} : s.Keeps { s with sl := s.sl.readOut count } := by
  refine onServiceLink ?_
  unfold ServiceLink.readOut
  split
  · rfl
  · rfl
  · dsimp only
    split <;> rfl

end State.Keeps

/-! ### Taking a frame (R170, R171) -/

section Frames

variable {s : State} {code : ReqCode} {f : ReqFrame} {serve : State → Reply}

/-- A frame changes the Service Link's transaction alone, or is served: the owner sees the state with a transaction, and the
response is made ready behind it. -/
theorem State.takeFrame_cases (s : State) (phase : Phase) (work : InWork) (count : Nat) (serve : State → Reply) :
    s.Keeps (s.takeFrame phase work count serve) ∨ ∃ transaction sl,
      sl.slot = (serve (s.withTransaction transaction)).state.sl.slot ∧
      s.takeFrame phase work count serve = { (serve (s.withTransaction transaction)).state with sl := sl } := by
  have written : ∀ atOnce, s.Keeps (s.writeFrame atOnce work count serve) ∨ ∃ transaction sl,
      sl.slot = (serve (s.withTransaction transaction)).state.sl.slot ∧
      s.writeFrame atOnce work count serve = { (serve (s.withTransaction transaction)).state with sl := sl } := by
    intro atOnce
    unfold State.writeFrame
    split
    · next closed =>
      split
      · refine .inr ⟨s.sl.transaction, _, ?_, rfl⟩
        rfl
      · exact .inl .aside
    · exact .inl .aside
    · exact .inl .aside
  unfold State.takeFrame
  split
  · exact .inl (.refl s)
  · cases phase with
    | whole => exact written true
    | write => exact written false
    | service =>
      dsimp only
      unfold State.serveFrame
      split
      · split
        · refine .inr ⟨.closed, _, ?_, rfl⟩
          rfl
        · exact .inl (.refl s)
      · exact .inl (.refl s)
      · exact .inl (.refl s)

/-- A request whose owner keeps what every step keeps; a long one's owner is asked only while no long operation is in
flight (R171). -/
theorem State.Keeps.request (owner : ∀ u : State, (isLong code = true → u.sl.slot.busy = false) → u.Keeps (serve u).state) :
    s.Keeps (s.request code f serve) := by
  have judged : ∀ u : State, u.Keeps (judge code (collect f.toFrame) serve u).state := fun u => by
    unfold judge
    split
    · exact .refl u
    · split
      · exact .refl u
      · next free => exact owner u fun long => by simpa [long] using free
  obtain kept | ⟨transaction, sl, slot, eq⟩ := State.takeFrame_cases s f.phase (.request code (collect f.toFrame))
    (4 + f.body.length) (judge code (collect f.toFrame) serve)
  · exact kept
  · rw [State.request, eq]
    exact .trans (.trans (t := s.withTransaction transaction) .aside (judged _)) (.onServiceLink slot)

/-- A change request at its owner: blocked, refused with the latch set, or accepted (R174, R175). -/
theorem State.Keeps.change {tag : Byte} {edit : State → Edit}
    (accepts : ∀ t status body, edit s = .accept t status body → s.Keeps t) :
    s.Keeps (Machine.change code tag edit s).state := by
  unfold Machine.change
  split
  · exact .refl s
  · split
    · exact .ite (fun _ => .onServiceLink rfl) fun _ => .refl s
    · exact accepts _ _ _ ‹_›

end Frames

end Sys2Proof.Machine
end

section
/-! SUPPORT. What one command and one step can change, said once for every command. -/

namespace Sys2Proof.Machine

/-! ### The owners of the change requests (9.4) -/

/-- A change request that is accepted has passed its check. -/
theorem Edit.accept_of_ite {c : Prop} [Decidable c] {reason status : Status} {subject : Nat} {index : Option Nat} {e : Edit}
    {t : State} {b : Body} (h : (if c then Edit.refuse reason subject index else e) = .accept t status b) :
    ¬ c ∧ e = .accept t status b := by
  split at h
  · exact absurd h (by simp)
  · exact ⟨‹_›, h⟩

namespace State.Keeps

variable {s t : State} {body : List Byte} {status : Status} {b : Body}

theorem editAmendObject (h : editAmendObject body s = .accept t status b) : s.Keeps t := by
  simp only [Machine.editAmendObject] at h
  split at h
  · exact absurd h (by simp)
  · split at h
    · exact absurd h (by simp)
    · next stored =>
      obtain ⟨-, h⟩ := Edit.accept_of_ite h
      obtain ⟨-, h⟩ := Edit.accept_of_ite h
      cases h
      exact amendObject stored

theorem editRetireObject (h : editRetireObject body s = .accept t status b) : s.Keeps t := by
  obtain ⟨-, h⟩ := Edit.accept_of_ite h
  split at h
  · exact absurd h (by simp)
  · obtain ⟨-, h⟩ := Edit.accept_of_ite h
    cases h
    exact retireObject

theorem editLoadPath (h : editLoadPath body s = .accept t status b) : s.Keeps t := by
  obtain ⟨-, h⟩ := Edit.accept_of_ite h
  split at h
  · exact absurd h (by simp)
  · obtain ⟨taken, h⟩ := Edit.accept_of_ite h
    split at h
    · exact absurd h (by simp)
    · split at h
      · exact absurd h (by simp)
      · obtain ⟨-, h⟩ := Edit.accept_of_ite h
        obtain ⟨room, h⟩ := Edit.accept_of_ite h
        cases h
        exact loadPath (by simpa using taken) (not_lt.mp room)

theorem editAmendTimingPoint (h : editAmendTimingPoint body s = .accept t status b) : s.Keeps t := by
  simp only [Machine.editAmendTimingPoint] at h
  split at h
  · exact absurd h (by simp)
  · obtain ⟨-, h⟩ := Edit.accept_of_ite h
    split at h
    · exact absurd h (by simp)
    · next stored =>
      obtain ⟨-, h⟩ := Edit.accept_of_ite h
      obtain ⟨-, h⟩ := Edit.accept_of_ite h
      obtain ⟨-, h⟩ := Edit.accept_of_ite h
      obtain ⟨-, h⟩ := Edit.accept_of_ite h
      obtain ⟨-, h⟩ := Edit.accept_of_ite h
      obtain ⟨-, h⟩ := Edit.accept_of_ite h
      cases h
      exact amendPoint stored

theorem editShiftPath (h : editShiftPath body s = .accept t status b) : s.Keeps t := by
  obtain ⟨-, h⟩ := Edit.accept_of_ite h
  split at h
  · exact absurd h (by simp)
  · next stored =>
    obtain ⟨-, h⟩ := Edit.accept_of_ite h
    obtain ⟨-, h⟩ := Edit.accept_of_ite h
    obtain ⟨-, h⟩ := Edit.accept_of_ite h
    obtain ⟨-, h⟩ := Edit.accept_of_ite h
    cases h
    exact shiftPath stored

theorem editCopyPath (h : editCopyPath body s = .accept t status b) : s.Keeps t := by
  obtain ⟨-, h⟩ := Edit.accept_of_ite h
  split at h
  · exact absurd h (by simp)
  · obtain ⟨taken, h⟩ := Edit.accept_of_ite h
    obtain ⟨-, h⟩ := Edit.accept_of_ite h
    obtain ⟨-, h⟩ := Edit.accept_of_ite h
    obtain ⟨-, h⟩ := Edit.accept_of_ite h
    obtain ⟨room, h⟩ := Edit.accept_of_ite h
    cases h
    exact loadPath (by simpa using taken) (by simpa [PathRec.plans] using room)

theorem editRepeatPath {tag : Byte} (free : s.sl.slot.busy = false)
    (h : editRepeatPath tag body s = .accept t status b) : s.Keeps t := by
  obtain ⟨ranges, h⟩ := Edit.accept_of_ite h
  split at h
  · exact absurd h (by simp)
  · next p stored =>
    split at h
    · exact absurd h (by simp)
    · next untaken =>
      obtain ⟨-, h⟩ := Edit.accept_of_ite h
      obtain ⟨-, h⟩ := Edit.accept_of_ite h
      obtain ⟨-, h⟩ := Edit.accept_of_ite h
      obtain ⟨-, h⟩ := Edit.accept_of_ite h
      obtain ⟨room, h⟩ := Edit.accept_of_ite h
      cases h
      refine beginRepeat free stored rfl (by dsimp only at ranges ⊢; omega) (fun k less => ?_) (not_lt.mp room)
      have none := List.find?_eq_none.mp untaken (field body 2 2 + k)
        (List.mem_map.mpr ⟨k, List.mem_range.mpr less, rfl⟩)
      simpa using none

theorem editArmPath (h : editArmPath body s = .accept t status b) : s.Keeps t := by
  simp only [Machine.editArmPath] at h
  split at h
  · exact absurd h (by simp)
  · next stored =>
    split at h
    · cases h
      exact activate stored
    · exact absurd h (by simp)

theorem editCancelPath (h : editCancelPath body s = .accept t status b) : s.Keeps t := by
  simp only [Machine.editCancelPath] at h
  split at h
  · exact absurd h (by simp)
  · next stored =>
    obtain ⟨-, h⟩ := Edit.accept_of_ite h
    split at h
    · cases h
      exact endPath stored
    · exact absurd h (by simp)

theorem editRetirePath (h : editRetirePath body s = .accept t status b) : s.Keeps t := by
  simp only [Machine.editRetirePath] at h
  split at h
  · exact absurd h (by simp)
  · next stored =>
    obtain ⟨unused, h⟩ := Edit.accept_of_ite h
    obtain ⟨-, h⟩ := Edit.accept_of_ite h
    cases h
    exact retirePath stored (.inr (by simpa using unused))

/-! ### The owners of the other requests -/

theorem serveSetTime : s.Keeps (serveSetTime body s).state := by
  unfold Machine.serveSetTime
  dsimp only
  split
  · exact refl s
  · next range =>
    split
    · have day := field_two_le body 0
      refine setTime ?_
      simp only [Config.usPerDay, Config.msPerDay] at range ⊢
      omega
    · exact refl s

theorem serveUnlockCapture : s.Keeps (serveUnlockCapture body s).state := by
  unfold Machine.serveUnlockCapture
  split
  · exact refl s
  · exact onLinkFrame (f := fun l => { l with capture := none, further := false })

theorem serveDialSet : s.Keeps (serveDialSet body s).state := by
  unfold Machine.serveDialSet
  split
  · split
    · unfold State.dialSet
      dsimp only
      split
      · exact refl s
      · split
        · exact refl s
        · exact (onLine rfl).trans afterDialSet
    · exact refl s
  · exact refl s

theorem serveNextCondition : s.Keeps (serveNextCondition body s).state := by
  unfold Machine.serveNextCondition
  split
  · exact refl s
  · dsimp only
    split
    · exact acknowledge
    · exact refl s

theorem serveAckCondition : s.Keeps (serveAckCondition body s).state := by
  unfold Machine.serveAckCondition
  split
  · exact refl s
  · split
    · exact refl s
    · split
      · exact refl s
      · split
        · exact acknowledge
        · exact refl s

theorem serveSetWatch : s.Keeps (serveSetWatch body s).state := by
  unfold Machine.serveSetWatch
  dsimp only
  split
  · split
    · exact refl s
    · split
      · exact aside
      · exact refl s
  · exact refl s

/-- A lookup leaves the records as they are. -/
theorem same {serve : State → Reply} (h : (serve s).state = s) : s.Keeps (serve s).state := by
  rw [h]
  exact refl s

end State.Keeps

/-- A lookup's answer leaves the records as they are. -/
theorem Reply.state_ite {c : Prop} [Decidable c] {a b : Reply} {s : State} (ha : a.state = s) (hb : b.state = s) :
    (if c then a else b).state = s := by
  split
  · exact ha
  · exact hb

theorem state_serveReadLink (body : List Byte) (s : State) : (serveReadLink body s).state = s := by
  unfold serveReadLink
  split <;> rfl

theorem state_serveReadObject (body : List Byte) (s : State) : (serveReadObject body s).state = s := by
  unfold serveReadObject
  refine Reply.state_ite rfl ?_
  split <;> rfl

theorem state_serveFindObjects (body : List Byte) (s : State) : (serveFindObjects body s).state = s :=
  Reply.state_ite rfl rfl

theorem state_serveReadPath (body : List Byte) (s : State) : (serveReadPath body s).state = s := by
  unfold serveReadPath
  refine Reply.state_ite rfl ?_
  split
  · rfl
  · exact Reply.state_ite rfl rfl

theorem state_serveFindPaths (body : List Byte) (s : State) : (serveFindPaths body s).state = s :=
  Reply.state_ite rfl rfl

theorem state_serveReadBerthQueue (body : List Byte) (s : State) : (serveReadBerthQueue body s).state = s := by
  unfold serveReadBerthQueue
  refine Reply.state_ite rfl ?_
  split <;> rfl

theorem state_serveReadLine (body : List Byte) (s : State) : (serveReadLine body s).state = s := by
  unfold serveReadLine
  split <;> rfl

theorem state_serveReadConditions (body : List Byte) (s : State) : (serveReadConditions body s).state = s := by
  unfold serveReadConditions
  split
  · rfl
  · exact Reply.state_ite rfl rfl

/-! ### The owner of every request -/

open State.Keeps in
/-- The owner of every request but DEFINE OBJECT keeps what every step keeps; REPEAT PATH, DIGEST PLAN and SAVE SETTINGS
while no long operation is in flight. -/
theorem State.Keeps.ownerOf {code : ReqCode} {f : Frame} {s : State} (other : code ≠ .defineObject)
    (free : isLong code = true → s.sl.slot.busy = false) : s.Keeps (ownerOf code f s).state := by
  cases code with
  | defineObject => exact absurd rfl other
  | setTime => exact serveSetTime
  | unlockCapture => exact serveUnlockCapture
  | getTime | getTimeStatus | readSettings => exact refl s
  | readLink => exact same (state_serveReadLink f.body s)
  | amendObject => exact change fun _ _ _ => editAmendObject
  | retireObject => exact change fun _ _ _ => editRetireObject
  | readObject => exact same (state_serveReadObject f.body s)
  | findObjects => exact same (state_serveFindObjects f.body s)
  | loadPath => exact change fun _ _ _ => editLoadPath
  | amendTimingPoint => exact change fun _ _ _ => editAmendTimingPoint
  | shiftPath => exact change fun _ _ _ => editShiftPath
  | copyPath => exact change fun _ _ _ => editCopyPath
  | repeatPath => exact change fun _ _ _ => editRepeatPath (free rfl)
  | armPath => exact change fun _ _ _ => editArmPath
  | cancelPath => exact change fun _ _ _ => editCancelPath
  | retirePath => exact change fun _ _ _ => editRetirePath
  | readPath => exact same (state_serveReadPath f.body s)
  | findPaths => exact same (state_serveFindPaths f.body s)
  | readBerthQueue => exact same (state_serveReadBerthQueue f.body s)
  | digestPlan => exact serveDigestPlan (free rfl)
  | dialSet => exact serveDialSet
  | readLine => exact same (state_serveReadLine f.body s)
  | nextCondition => exact serveNextCondition
  | ackCondition => exact serveAckCondition
  | readConditions => exact same (state_serveReadConditions f.body s)
  | setWatch => exact serveSetWatch
  | readWatch => exact aside
  | getStatus => exact statusRead
  | clearEditFault => exact onServiceLink rfl
  | setSetting => exact serveSetSetting
  | saveSettings => exact serveSaveSettings (free rfl)

/-! ### DEFINE OBJECT (R45) -/

/-- What any command but the power-on can change: what every step keeps is kept, at once or after a record without
conditions has been created at an empty place. -/
inductive State.Changes (s t : State) : Prop
  | keeps (kept : s.Keeps t)
  | creates (n : Nat) (r : ObjectRec) (empty : s.object n = none) (low : 1 ≤ n) (high : n ≤ 4095) (conds : r.conds = [])
    (kept : (s.setObject n r).Keeps t)

/-- The record that DEFINE OBJECT creates stands at an empty place, within the range of object numbers (R43, R45). -/
theorem editDefineObject_accepts {body : List Byte} {s t : State} {status : Status} {b : Body}
    (h : editDefineObject body s = .accept t status b) :
    ∃ n r, s.object n = none ∧ 1 ≤ n ∧ n ≤ 4095 ∧ r.conds = [] ∧ t = s.setObject n r := by
  simp only [editDefineObject] at h
  split at h
  · exact absurd h (by simp)
  · next fields =>
    split_ifs at h with empty
    cases h
    have range : objectNumber (field body 0 2) = true := by
      by_contra out
      rw [defineFields, if_neg out] at fields
      exact absurd fields (by simp)
    simp only [objectNumber, Bool.and_eq_true, decide_eq_true_eq] at range
    exact ⟨_, _, by simpa using empty, range.1, range.2, rfl, rfl⟩

/-- DEFINE OBJECT at its owner, the frame judged (R45, R171). -/
theorem State.changes_judged (s : State) (f : ReqFrame) : s.Changes
    (judge .defineObject (collect f.toFrame) (change .defineObject f.tag (editDefineObject f.body)) s).state := by
  unfold judge
  split
  · exact .keeps (.refl s)
  · split
    · exact .keeps (.refl s)
    · unfold change
      split
      · exact .keeps (.refl s)
      · split
        · exact .keeps (.ite (fun _ => .onServiceLink rfl) fun _ => .refl s)
        · next accepts =>
          obtain ⟨n, r, empty, low, high, conds, rfl⟩ := editDefineObject_accepts accepts
          exact .creates n r empty low high conds (.refl _)

/-- A change of the Service Link's own record before and after a change of the records. -/
theorem State.changes_created {s u t : State} {sl : ServiceLink} (objects : u.objects = s.objects) (started : s.Keeps u)
    (created : ∀ n r, (s.setObject n r).Keeps (u.setObject n r)) (changes : u.Changes t) (slot : sl.slot = t.sl.slot) :
    s.Changes { t with sl := sl } := by
  cases changes with
  | keeps kept => exact .keeps ((started.trans kept).trans (.onServiceLink slot))
  | creates n r empty low high conds kept =>
    exact .creates n r (by rwa [State.object, objects] at empty) low high conds
      (((created n r).trans kept).trans (.onServiceLink slot))

theorem State.changes_defineObject (s : State) (f : ReqFrame) :
    s.Changes (s.request .defineObject f (change .defineObject f.tag (editDefineObject f.body))) := by
  obtain kept | ⟨transaction, sl, slot, eq⟩ := State.takeFrame_cases s f.phase
    (.request .defineObject (collect f.toFrame)) (4 + f.body.length)
    (judge .defineObject (collect f.toFrame) (change .defineObject f.tag (editDefineObject f.body)))
  · exact .keeps kept
  · rw [State.request, eq]
    exact State.changes_created (u := s.withTransaction transaction) rfl .aside (fun _ _ => .aside)
      (State.changes_judged _ f) slot

end Sys2Proof.Machine
end

section
/-! SUPPORT. What one command and one step can change, over every command: the power-on apart, a command keeps what every
step keeps, or creates one object. -/

namespace Sys2Proof.Machine

/-! ### One command -/

/-- A command that answers with a state changed as no power-on changes it. -/
def State.Runs (s : State) (c : Instr) : Prop := ∃ u, exec c s = .next u.settle ∧ s.Changes u

theorem State.Runs.of_keeps {s u : State} {c : Instr} (kept : s.Keeps u)
    (runs : exec c s = .next u.settle := by rfl) : s.Runs c := ⟨u, runs, .keeps kept⟩

/-- An event that is taken only while RESTART_N is not held. -/
theorem State.Runs.of_running {s : State} {c : Instr} (f : State → State) (kept : s.Keeps (f s))
    (runs : exec c s = .next (s.whenRunning f).settle := by rfl) : s.Runs c := .of_keeps (.whenRunning kept) runs

/-- A request frame, for every request of Table 9-2. -/
theorem State.runs_request (code : ReqCode) (f : ReqFrame) (s : State) : s.Runs (commandOf code f) := by
  by_cases inTurn : asksInTurn code = false ∨ f.phase ≠ .service
  · refine ⟨_, exec_commandOf code f s inTurn, ?_⟩
    by_cases create : code = .defineObject
    · exact create ▸ s.changes_defineObject f
    · exact .keeps (.request fun u free => .ownerOf create free)
  · obtain ⟨asks, phase⟩ := not_or.mp inTurn
    have service : f.phase = .service := not_not.mp phase
    have runs : ∀ (start : Gathered) (serve : State → Reply),
        s.Keeps (s.requestInTurn f serve start) := fun start serve => by
      rw [State.requestInTurn, service]
      exact .whenRunning .serveInTurn
    cases code with
    | readWatch => exact .of_keeps (runs _ _)
    | getStatus => exact .of_keeps (runs _ _)
    | _ => exact absurd rfl asks

theorem State.Keeps.takeFrame_badRequest {s : State} {phase : Phase} {work : InWork} {count : Nat} :
    s.Keeps (s.takeFrame phase work count badRequest) := by
  obtain kept | ⟨transaction, sl, slot, eq⟩ := State.takeFrame_cases s phase work count badRequest
  · exact kept
  · rw [eq]
    exact .trans (t := s.withTransaction transaction) .aside (.onServiceLink slot)

theorem State.Keeps.otherTransfer {s : State} (x : OtherTransfer) : s.Keeps (s.otherTransfer x) := by
  cases x with
  | incomplete => exact .refl s
  | otherCommand c count => exact .whenRunning (f := fun s => s.shiftZeros count) .aside
  | emptyWrite => exact .refl s
  | short1 code phase => exact takeFrame_badRequest
  | short2 code tag phase => exact takeFrame_badRequest
  | short3 code tag b phase => exact takeFrame_badRequest
  | unknownCode code f => exact takeFrame_badRequest

namespace State.Keeps

/-- Every command but the power-on. -/
theorem runs_of_ne_powerOn (c : Instr) (s : State) (other : c ≠ .powerOn) : s.Runs c := by
  cases c with
  | powerOn => exact absurd rfl other
  | restartTaken => exact .of_keeps (ite (fun _ => refl s) fun _ => restart)
  | restartRelease => exact .of_keeps (ite (fun _ => release) fun _ => refl s)
  | refMsgComplete b | refMsgCharacter b => exact .of_keeps (onTimeBase TimeBase.Kept.refCharacter)
  | refMsgInterByteTimeout => exact .of_keeps (onTimeBase (f := fun t => if t.refTimedOut then t.abandonMessage else t)
    (.ite (fun _ => .refRx) fun _ => .refl _))
  | refMsgBadCharacter => exact .of_keeps (onTimeBase TimeBase.Kept.refRx)
  | refPpsEdge => exact .of_running _ ppsEdge
  | tcTakesTimeAnnouncement => exact .of_running _ tcTakes
  | scTakesTimeAnnouncement => exact .of_running _ scTakes
  | referenceGapExpiry => exact .of_running _ referenceGap
  | holdoverLimitExpiry => exact .of_running _ holdoverLimit
  | endOfRangeHold => exact .of_keeps endOfRange
  | telegramReceived i b | lengthByteRejected i b | linkCharacterReceived i b =>
    exact .of_keeps (whenReceiving (f := fun s => s.character i b) character)
  | linkInterByteTimeout i => exact .of_keeps (whenReceiving (f := fun s => s.interByteTimeout i) interByteTimeout)
  | linkBadCharacter i => exact .of_keeps (whenReceiving (f := fun s => s.badCharacter i) badCharacter)
  | silenceExpiry i => exact .of_running (fun s => s.silence i) silence
  | takeTelegramEntry i => exact .of_running (fun s => s.takeTelegram i) takeTelegram
  | takeGapMarker i => exact .of_running (fun s => s.takeMarker i) takeMarker
  | throwLimitExpiry n => exact .of_running (fun s => s.throwExpiry n) throwExpiry
  | clearLimitExpiry n => exact .of_running (fun s => s.clearExpiry n) clearExpiry
  | unmatchedAnswer => exact .of_running _ takeAnswer
  | berthEvent => exact .of_running _ takeBerthEvent
  | repeatCopyCreation => exact .of_running _ createCopy
  | digestWalkStep => exact .of_running _ walkStep
  | activation => exact .of_running _ serveActivation
  | overdueService => exact .of_running _ serveOverdue
  | lostService => exact .of_running _ serveLost
  | retireDeadlineExpiry => exact .of_running _ serveRetire
  | dialTargetChange => exact .of_running _ evaluateAll
  | impulseSense i x => exact .of_running (fun s => s.sense i x) sense
  | impulseCompletion i => exact .of_running (fun s => s.complete i) complete
  | gapEnd i => exact .of_running (fun s => s.gapEnds i) gapEnds
  | faultRetryExpiry i => exact .of_running (fun s => s.retry i) retry
  | saveWriteComplete ok => exact .of_running (fun s => s.saveEnds ok) saveEnds
  | readResponse n => exact .of_running (fun s => { s with sl := s.sl.readOut n }) readOut
  | unknownRequestFrame x => exact .of_keeps (otherTransfer x)
  | setTime f => exact runs_request .setTime f s
  | getTime f => exact runs_request .getTime f s
  | getTimeStatus f => exact runs_request .getTimeStatus f s
  | unlockCapture f => exact runs_request .unlockCapture f s
  | readLink f => exact runs_request .readLink f s
  | defineObject f => exact runs_request .defineObject f s
  | amendObject f => exact runs_request .amendObject f s
  | retireObject f => exact runs_request .retireObject f s
  | readObject f => exact runs_request .readObject f s
  | findObjects f => exact runs_request .findObjects f s
  | loadPath f => exact runs_request .loadPath f s
  | amendTimingPoint f => exact runs_request .amendTimingPoint f s
  | shiftPath f => exact runs_request .shiftPath f s
  | copyPath f => exact runs_request .copyPath f s
  | repeatPath f => exact runs_request .repeatPath f s
  | armPath f => exact runs_request .armPath f s
  | cancelPath f => exact runs_request .cancelPath f s
  | retirePath f => exact runs_request .retirePath f s
  | readPath f => exact runs_request .readPath f s
  | findPaths f => exact runs_request .findPaths f s
  | readBerthQueue f => exact runs_request .readBerthQueue f s
  | digestPlan f => exact runs_request .digestPlan f s
  | dialSet f => exact runs_request .dialSet f s
  | readLine f => exact runs_request .readLine f s
  | nextCondition f => exact runs_request .nextCondition f s
  | ackCondition f => exact runs_request .ackCondition f s
  | readConditions f => exact runs_request .readConditions f s
  | setWatch f => exact runs_request .setWatch f s
  | readWatch f => exact runs_request .readWatch f s
  | getStatus f => exact runs_request .getStatus f s
  | clearEditFault f => exact runs_request .clearEditFault f s
  | setSetting f => exact runs_request .setSetting f s
  | readSettings f => exact runs_request .readSettings f s
  | saveSettings f => exact runs_request .saveSettings f s

end State.Keeps

/-! ### The power-on (R23, R185) -/

/-- The part before its settings are loaded at a power-on. -/
def State.fresh (s : State) : State :=
  { State.reset with copy := s.copy, freeCount := s.freeCount, pending := s.pending }

theorem State.exec_powerOn (s : State) : exec .powerOn s = .next s.powerOn.settle := rfl

/-- A power-on changes the part as reset by what every step keeps. -/
theorem State.keeps_powerOn (s : State) : s.fresh.Keeps s.powerOn :=
  (State.Keeps.loadSettings.trans (.foldl (f := State.powerOnLine) (fun _ _ => .powerOnLine) four _)).trans .beginService

/-! ### The step -/

theorem mem_whenDue {due : Bool} {c d : Instr} : d ∈ whenDue due c ↔ due = true ∧ d = c := by
  unfold whenDue
  split <;> simp_all

theorem powerOn_not_mem_whenDue {due : Bool} {c : Instr} (other : c ≠ .powerOn) : .powerOn ∉ whenDue due c :=
  fun mem => other (mem_whenDue.mp mem).2.symm

theorem State.powerOn_not_mem_dueAtLine (s : State) (i : Fin 4) : .powerOn ∉ s.dueAtLine i := by
  unfold State.dueAtLine
  split
  · split
    · exact powerOn_not_mem_whenDue (by simp)
    · exact powerOn_not_mem_whenDue (by simp)
  · exact powerOn_not_mem_whenDue (by simp)
  · exact powerOn_not_mem_whenDue (by simp)
  all_goals exact List.not_mem_nil

theorem ObjectRec.powerOn_not_mem_dueLimit (r : ObjectRec) (n elapsed : Nat) : .powerOn ∉ r.dueLimit n elapsed := by
  unfold ObjectRec.dueLimit
  split
  · exact powerOn_not_mem_whenDue (by simp)
  · exact powerOn_not_mem_whenDue (by simp)
  · exact List.not_mem_nil

theorem State.powerOn_not_mem_headEvent (s : State) (i : Fin 4) : .powerOn ∉ s.headEvent i := by
  unfold State.headEvent
  split <;> simp

theorem commandOf_ne_powerOn (code : ReqCode) (f : ReqFrame) : commandOf code f ≠ .powerOn := by
  cases code <;> exact Instr.noConfusion

theorem Transaction.powerOn_not_mem_service (x : Transaction) : .powerOn ∉ x.service := by
  unfold Transaction.service
  split <;> simp [(commandOf_ne_powerOn _ _).symm]

/-- A power-on is no event of the part itself. -/
theorem State.powerOn_not_mem_timedEvents (s : State) : .powerOn ∉ s.timedEvents := by
  unfold State.timedEvents
  split <;> simp [State.dueAtTimeBase, State.dueAtLink, powerOn_not_mem_whenDue, State.powerOn_not_mem_dueAtLine,
    ObjectRec.powerOn_not_mem_dueLimit]

theorem State.powerOn_not_mem_ownWork (s : State) : .powerOn ∉ s.ownWork := by
  unfold State.ownWork
  split <;> simp [powerOn_not_mem_whenDue, State.powerOn_not_mem_headEvent, Transaction.powerOn_not_mem_service]

/-- The state whose next command is taken: the queue's rest, and the free values used. -/
def State.taking (s : State) (rest : List Instr) (used : Nat) : State := { s with pending := rest, freeCount := used }

theorem State.useFree_eq (s : State) : s.useFree = s.taking s.pending (s.freeCount + 1) := rfl

/-- What a step does (log 1): a command runs, the power-on only from the front of the queue; or time goes on; or a free
value alone is used. -/
theorem State.step_cases (s : State) : ∃ rest used, (∃ c, step s = exec c (s.taking rest used) ∧
      (c = .powerOn → s.pending.head? = some .powerOn)) ∨
    step s = .next (s.taking rest used).tick ∨ step s = .next (s.taking rest used) := by
  unfold step
  split
  · next c rest front =>
    exact ⟨rest, s.freeCount, .inl ⟨c, rfl, fun power => by rw [front, power]; rfl⟩⟩
  · unfold State.idle
    dsimp only
    split
    · split
      · exact ⟨s.pending, s.freeCount, .inr (.inl rfl)⟩
      · split
        · next c picked =>
          refine ⟨s.pending, s.freeCount + 1, .inl ⟨c, rfl, fun power => ?_⟩⟩
          exact absurd (power ▸ List.mem_of_getElem? picked) s.powerOn_not_mem_ownWork
        · exact ⟨s.pending, s.freeCount + 1, .inr (.inl rfl)⟩
    · split
      · next c picked =>
        refine ⟨s.pending, s.freeCount + 1, .inl ⟨c, rfl, fun power => ?_⟩⟩
        exact absurd (power ▸ List.mem_of_getElem? picked) s.powerOn_not_mem_timedEvents
      · exact ⟨s.pending, s.freeCount + 1, .inr (.inr rfl)⟩

/-- Every command answers, with attention brought up to date. -/
theorem State.exec_settles (c : Instr) (s : State) : ∃ u : State, exec c s = .next u.settle := by
  by_cases power : c = .powerOn
  · exact ⟨_, power ▸ s.exec_powerOn⟩
  · obtain ⟨u, runs, -⟩ := State.Keeps.runs_of_ne_powerOn c s power
    exact ⟨u, runs⟩

theorem State.keeps_settle (s : State) : s.Keeps s.settle := .aside

theorem State.Changes.settle {s u : State} (h : s.Changes u) : s.Changes u.settle := by
  cases h with
  | keeps kept => exact .keeps (kept.trans u.keeps_settle)
  | creates n r empty low high conds kept => exact .creates n r empty low high conds (kept.trans u.keeps_settle)

theorem State.Changes.of_taking {s u : State} {rest : List Instr} {used : Nat} (h : (s.taking rest used).Changes u) :
    s.Changes u := by
  cases h with
  | keeps kept => exact .keeps (.trans (t := s.taking rest used) .aside kept)
  | creates n r empty low high conds kept =>
    exact .creates n r empty low high conds (.trans (t := (s.taking rest used).setObject n r) .aside kept)

/-- A step keeps what every step keeps, or creates one record, or is a power-on at the front of the queue. -/
theorem State.step_changes {s t : State} (h : step s = .next t) :
    s.Changes t ∨ (s.pending.head? = some .powerOn ∧ ∃ u : State, u.fresh.Keeps t) := by
  obtain ⟨rest, used, ⟨c, runs, front⟩ | ticks | picks⟩ := s.step_cases
  · by_cases power : c = .powerOn
    · rw [h, power, State.exec_powerOn] at runs
      cases runs
      exact .inr ⟨front power, _, (State.keeps_powerOn _).trans (State.keeps_settle _)⟩
    · obtain ⟨u, answers, changes⟩ := State.Keeps.runs_of_ne_powerOn c (s.taking rest used) power
      rw [h, answers] at runs
      cases runs
      exact .inl changes.settle.of_taking
  · cases h.symm.trans ticks
    exact .inl (State.Changes.of_taking (.keeps .tick))
  · cases h.symm.trans picks
    exact .inl (State.Changes.of_taking (.keeps (.refl _)))

end Sys2Proof.Machine
end

section
/-! PROOFS. One step (O1, O2), and what every step keeps (O3 to O10). -/

namespace Sys2Proof.Machine

/-- Settles O1: the queue's front is what the definition of a step takes. -/
theorem stepRunsTheFrontCommand : Obligations.StepRunsTheFrontCommand := by
  unfold Obligations.StepRunsTheFrontCommand
  intro c rest s front
  rw [step, front]

/-- Settles O2: every command answers with a next state, and so does an empty queue. -/
theorem noStepStops : Obligations.NoStepStops := by
  unfold Obligations.NoStepStops
  intro s
  obtain ⟨rest, used, ⟨c, runs, -⟩ | ticks | picks⟩ := s.step_cases
  · obtain ⟨u, settles⟩ := State.exec_settles c (s.taking rest used)
    exact ⟨_, runs.trans settles⟩
  · exact ⟨_, ticks⟩
  · exact ⟨_, picks⟩

/-! ### Attention (R159) -/

theorem Settings.calls_iff (w : Settings) (x : Condition) :
    w.calls x = true ↔ x.state ≠ .activeAck ∧ 1 ≤ w.priority x.cls := by
  cases state : x.state <;> simp [Settings.calls, CondState.unack, state]

theorem State.anyCalling_iff (s : State) (line : Routing) : s.anyCalling line = true ↔
    ∃ x ∈ s.conditions, x.2.state ≠ .activeAck ∧ 1 ≤ s.settings.priority x.2.cls ∧ s.settings.line x.2.cls = line := by
  simp [State.anyCalling, List.any_eq_true, Settings.calls_iff, and_assoc]

theorem Slot.unread_iff (x : Slot) : x.unread = true ↔ ∃ c, x = .done c ∧ c.unread = true := by
  cases x <;> simp [Slot.unread]

/-- Attention is sound exactly when both lines show what they are to show. -/
theorem State.attentionSound_iff (s : State) : s.attentionSound ↔ s.attnU = s.wantsU ∧ s.attnR = s.wantsR := by
  have urgent : s.wantsU = true ↔ s.held = false ∧ s.anyCalling .urgent = true := by simp [State.wantsU]
  have routine : s.wantsR = true ↔ s.held = false ∧ (s.anyCalling .routine = true ∨
      (s.settings.watchAttention = true ∧ s.anyChanged = true) ∨ s.sl.slot.unread = true) := by
    simp [State.wantsR, or_assoc]
  rw [State.anyCalling_iff] at urgent
  rw [State.anyCalling_iff, Slot.unread_iff, State.anyChanged, List.any_eq_true] at routine
  rw [State.attentionSound, ← urgent, ← routine, ← Bool.eq_iff_iff, ← Bool.eq_iff_iff]

theorem State.attentionSound_settle (s : State) : s.settle.attentionSound :=
  s.settle.attentionSound_iff.mpr ⟨rfl, rfl⟩

/-- The passing of time changes no condition. -/
theorem State.conditions_tick (s : State) : s.tick.conditions = s.conditions := by
  have conds : s.tick.tb.conds = s.tb.conds := by
    unfold State.tick TimeBase.tick
    dsimp only
    split <;> rfl
  unfold State.conditions
  rw [conds]
  rfl

theorem State.attentionSound_tick {s : State} (h : s.attentionSound) : s.tick.attentionSound := by
  unfold State.attentionSound
  rw [s.conditions_tick]
  exact h

/-- Settles O3: a command answers with the lines brought up to date; time and the free values change none of their
inputs. -/
theorem attentionLinesStaySound : Obligations.AttentionLinesStaySound := by
  unfold Obligations.AttentionLinesStaySound
  intro s t sound run
  obtain ⟨rest, used, ⟨c, runs, -⟩ | ticks | picks⟩ := s.step_cases
  · obtain ⟨u, settles⟩ := State.exec_settles c (s.taking rest used)
    cases run.symm.trans (runs.trans settles)
    exact u.attentionSound_settle
  · cases run.symm.trans ticks
    exact State.attentionSound_tick (s := s.taking rest used) sound
  · cases run.symm.trans picks
    exact sound

/-! ### The state after reset, and a created record -/

theorem State.timeBase_fresh (u : State) : u.fresh.tb.inRange := by
  change TimeBase.initial.inRange
  simp [TimeBase.inRange, TimeBase.initial]

theorem State.queuesSound_fresh (u : State) : u.fresh.queuesSound := by
  intro i
  change ((Vec.fill 4 Link.initial).get i).queueSound
  simp [Link.initial, Link.queueSound]

theorem State.storesSound_fresh (u : State) : u.fresh.storesSound := by
  refine ⟨List.Pairwise.nil, List.Pairwise.nil, fun e mem => absurd mem List.not_mem_nil, List.Pairwise.nil, fun i => ?_,
    fun i => ?_, fun e mem => absurd mem List.not_mem_nil, fun e mem => absurd mem List.not_mem_nil⟩
  · change ((Vec.fill 4 Link.initial).get i).conds.Ordered
    simp [Link.initial]
  · change ((Vec.fill 4 Line.initial).get i).conds.Ordered
    simp [Line.initial]

theorem State.poolSound_fresh (u : State) : u.fresh.poolSound :=
  ⟨List.Pairwise.nil, rfl, rfl, State.slotSound_of_idle ⟨rfl, rfl, rfl⟩⟩

/-- A record created at an empty place, within the range of object numbers and without conditions. -/
theorem State.storesSound_created {s : State} {n : Nat} {r : ObjectRec} (low : 1 ≤ n) (high : n ≤ 4095)
    (conds : r.conds = []) (h : s.storesSound) : (s.setObject n r).storesSound := by
  obtain ⟨objects, paths, numbers, tb, links, lines, ordered, pathConds⟩ := h
  refine ⟨Store.sorted_set objects n r, paths, fun e mem => ?_, tb, links, lines, fun e mem => ?_, pathConds⟩
  · obtain rfl | mem := Store.mem_set mem
    · exact ⟨low, high⟩
    · exact numbers e mem
  · obtain rfl | mem := Store.mem_set mem
    · simp [conds]
    · exact ordered e mem

/-! ### What every step keeps -/

section Kept

variable {s t : State}

theorem State.settings_step (h : s.settings.inRange = true) (run : step s = .next t) : t.settings.inRange = true := by
  obtain (kept | ⟨n, r, -, -, -, -, kept⟩) | ⟨-, u, kept⟩ := State.step_changes run
  · exact kept.settings h
  · exact kept.settings h
  · exact kept.settings Settings.inRange_default

theorem State.timeBase_step (h : s.tb.inRange) (run : step s = .next t) : t.tb.inRange := by
  obtain (kept | ⟨n, r, -, -, -, -, kept⟩) | ⟨-, u, kept⟩ := State.step_changes run
  · exact kept.timeBase h
  · exact kept.timeBase h
  · exact kept.timeBase u.timeBase_fresh

/-- Settles O4. -/
theorem settingsStayInRange : Obligations.SettingsStayInRange := by
  unfold Obligations.SettingsStayInRange
  exact ⟨fun _ _ => State.settings_step, fun _ _ => State.timeBase_step⟩

/-- Settles O5. -/
theorem arrivalQueuesStayBounded : Obligations.ArrivalQueuesStayBounded := by
  unfold Obligations.ArrivalQueuesStayBounded
  intro s t h run
  obtain (kept | ⟨n, r, -, -, -, -, kept⟩) | ⟨-, u, kept⟩ := State.step_changes run
  · exact kept.queues h
  · exact kept.queues h
  · exact kept.queues u.queuesSound_fresh

/-- Settles O6: a created record stands in number order, within the range, with no condition. -/
theorem storesStayOrdered : Obligations.StoresStayOrdered := by
  unfold Obligations.StoresStayOrdered
  intro s t h run
  obtain (kept | ⟨n, r, -, low, high, conds, kept⟩) | ⟨-, u, kept⟩ := State.step_changes run
  · exact kept.stores h
  · exact kept.stores (State.storesSound_created low high conds h)
  · exact kept.stores u.storesSound_fresh

/-- Settles O7: an object is no part of the pool's account. -/
theorem poolStaysAccounted : Obligations.PoolStaysAccounted := by
  unfold Obligations.PoolStaysAccounted
  intro s t h run
  obtain (kept | ⟨n, r, -, -, -, -, kept⟩) | ⟨-, u, kept⟩ := State.step_changes run
  · exact kept.pool h
  · exact kept.pool (State.poolSound_of_eq rfl rfl rfl rfl rfl rfl rfl h)
  · exact kept.pool u.poolSound_fresh

/-- Settles O8: a new part holds no condition, entry, object or path, and its whole pool is free. -/
theorem resetIsSound : Obligations.ResetIsSound := by
  unfold Obligations.ResetIsSound
  have new : State.reset = State.reset.fresh := rfl
  refine ⟨State.reset.attentionSound_iff.mpr ⟨by decide, by decide⟩, rfl, rfl, Settings.inRange_default, ?_, ?_, ?_, ?_⟩
  · exact new ▸ State.reset.timeBase_fresh
  · exact new ▸ State.reset.queuesSound_fresh
  · exact new ▸ State.reset.storesSound_fresh
  · exact new ▸ State.reset.poolSound_fresh

/-- Settles O9. -/
theorem elapsedCountNeverDecreases : Obligations.ElapsedCountNeverDecreases := by
  unfold Obligations.ElapsedCountNeverDecreases
  intro s t front run
  obtain (kept | ⟨n, r, -, -, -, -, kept⟩) | ⟨power, -⟩ := State.step_changes run
  · exact kept.elapsed
  · exact kept.elapsed
  · exact absurd power front

/-- Settles O10: a created record did not stand before, and a power-on leaves none. -/
theorem stateSinceNeverDecreases : Obligations.StateSinceNeverDecreases := by
  unfold Obligations.StateSinceNeverDecreases
  intro s t n r r' run before after
  obtain (kept | ⟨k, x, empty, -, -, -, kept⟩) | ⟨-, u, kept⟩ := State.step_changes run
  · obtain ⟨r₀, stood, le⟩ := kept.since n r' after
    cases before.symm.trans stood
    exact le
  · obtain ⟨r₀, stood, le⟩ := kept.since n r' after
    have other : k ≠ n := by
      rintro rfl
      exact absurd (empty.symm.trans before) (by simp)
    rw [State.object_setObject_ne (s := s) x other] at stood
    cases before.symm.trans stood
    exact le
  · obtain ⟨r₀, stood, -⟩ := kept.since n r' after
    exact absurd stood (by simp [State.fresh, State.reset, State.object, Store.get])

end Kept

end Sys2Proof.Machine
end

section
/-! PROOFS. The taking of frames (chapter 9): O11, O12, O15. -/

namespace Sys2Proof.Machine

/-- The command of a request that is not served, at a state where its frame has this effect. -/
theorem State.exec_written {s u : State} {code : ReqCode} {f : ReqFrame} (written : f.phase ≠ .service)
    (effect : s.request code f (ownerOf code f.toFrame) = u) : exec (commandOf code f) s = .next u.settle := by
  rw [exec_commandOf code f s (.inr written), effect]

/-- Settles O11: the Service Link judges the frame before its owner. -/
theorem checksComeBeforeTheOwner : Obligations.ChecksComeBeforeTheOwner := by
  unfold Obligations.ChecksComeBeforeTheOwner
  refine ⟨fun code f => frameOk_collect, fun code f s whole held closed => ?_⟩
  have written : f.phase ≠ .service := by simp [whole]
  refine ⟨fun bad => ?_, fun ok long inFlight => ?_⟩
  · exact State.exec_written written (State.request_malformed whole held closed bad)
  · obtain ⟨kind, tag, date, slot⟩ := inFlight
    exact State.exec_written written (State.request_busy whole held closed ok long (by simp [slot, Slot.busy]))

/-! ### Frames that name no request (R167, R168, R170, R171) -/

section Transfers

variable {s : State} {phase : Phase} {work : InWork} {count : Nat} {serve : State → Reply}

theorem State.takeFrame_held (held : s.held = true) : s.takeFrame phase work count serve = s := by
  simp [State.takeFrame, held]

/-- A frame written while a response is pending is discarded (R170). -/
theorem State.takeFrame_discarded {r : Response} (written : phase ≠ .service) (held : s.held = false)
    (pending : s.sl.transaction = .pending r) : s.takeFrame phase work count serve =
      { s with sl := { s.sl with
        transaction := .pending { r with lostRequest := true }, out := List.replicate count 0 } } := by
  cases phase with
  | service => exact absurd rfl written
  | whole | write => simp [State.takeFrame, State.writeFrame, held, pending, State.withTransaction, State.shiftZeros]

/-- A frame written while another is in work is discarded, and LOST_REQUEST recorded (R170). -/
theorem State.takeFrame_lost {other : InWork} {lost : Bool} (written : phase ≠ .service) (held : s.held = false)
    (inWork : s.sl.transaction = .inWork other lost) : s.takeFrame phase work count serve =
      { s with sl := { s.sl with transaction := .inWork other true, out := List.replicate count 0 } } := by
  cases phase with
  | service => exact absurd rfl written
  | whole | write => simp [State.takeFrame, State.writeFrame, held, inWork, State.withTransaction, State.shiftZeros]

/-- A frame left in work (R170). -/
theorem State.takeFrame_written (write : phase = .write) (held : s.held = false) (closed : s.sl.transaction = .closed) :
    s.takeFrame phase work count serve =
      { s with sl := { s.sl with transaction := .inWork work false, out := List.replicate count 0 } } := by
  simp [write, State.takeFrame, State.writeFrame, held, closed, State.withTransaction, State.shiftZeros]

/-- A frame that names no request, answered in the event of its admission (R171). -/
theorem State.takeFrame_badRequest (whole : phase = .whole) (held : s.held = false)
    (closed : s.sl.transaction = .closed) : s.takeFrame phase work count badRequest =
      { s with sl := { s.sl with
        transaction := .pending ⟨work.code, work.tag, .badRequest, false, .none⟩, out := List.replicate count 0 } } := by
  simp [whole, State.takeFrame, State.writeFrame, held, closed, badRequest, Reply.same, Reply.makeReady]

/-- A frame that names no request, answered while in work (R170, R171). -/
theorem State.takeFrame_served {lost : Bool} (service : phase = .service) (held : s.held = false)
    (inWork : s.sl.transaction = .inWork work lost) : s.takeFrame phase work count badRequest =
      { s with sl := { s.sl with transaction := .pending ⟨work.code, work.tag, .badRequest, lost, .none⟩ } } := by
  simp [service, State.takeFrame, State.serveFrame, held, inWork, badRequest, Reply.same, Reply.makeReady,
    State.withTransaction]

/-- The service of a frame that is not in work changes nothing. -/
theorem State.takeFrame_other (service : phase = .service) (other : ∀ lost, s.sl.transaction ≠ .inWork work lost) :
    s.takeFrame phase work count serve = s := by
  unfold State.takeFrame
  split
  · rfl
  · rw [service]
    dsimp only
    unfold State.serveFrame
    split
    · next present lost inWork => exact if_neg fun same : present = work => other lost (same ▸ inWork)
    · rfl
    · rfl

end Transfers

/-- Settles O15. -/
theorem unknownFrameIsBadRequest : Obligations.UnknownFrameIsBadRequest := by
  unfold Obligations.UnknownFrameIsBadRequest
  intro s held answered
  refine ⟨fun closed => ⟨fun code => ?_, fun code tag => ?_, fun code tag b => ?_, fun code f whole => ?_⟩,
    fun command n => ?_, rfl, rfl⟩
  · exact congrArg (fun t => Host.Outcome.next (State.settle t)) (State.takeFrame_badRequest rfl held closed)
  · exact congrArg (fun t => Host.Outcome.next (State.settle t)) (State.takeFrame_badRequest rfl held closed)
  · exact congrArg (fun t => Host.Outcome.next (State.settle t)) (State.takeFrame_badRequest rfl held closed)
  · exact congrArg (fun t => Host.Outcome.next (State.settle t)) (State.takeFrame_badRequest whole held closed)
  · exact congrArg (fun t => Host.Outcome.next (State.settle t)) (if_neg (by simp [held]))

/-! ### One transaction at a time (R170) -/

section Transaction

variable {s : State}

/-- The part with another transaction open and zeros shifted out. -/
def State.leaving (s : State) (x : Transaction) (count : Nat) : State :=
  { s with sl := { s.sl with transaction := x, out := List.replicate count 0 } }

/-- Every frame written is discarded, leaving this transaction. -/
structure State.Discards (s : State) (x : Transaction) : Prop where
  request : ∀ code f, f.phase ≠ .service → exec (commandOf code f) s = .next (s.leaving x (4 + f.body.length)).settle
  short1 : ∀ code phase, phase ≠ .service →
    exec (.unknownRequestFrame (.short1 code phase)) s = .next (s.leaving x 1).settle
  short2 : ∀ code tag phase, phase ≠ .service →
    exec (.unknownRequestFrame (.short2 code tag phase)) s = .next (s.leaving x 2).settle
  short3 : ∀ code tag b phase, phase ≠ .service →
    exec (.unknownRequestFrame (.short3 code tag b phase)) s = .next (s.leaving x 3).settle
  unknownCode : ∀ code f, f.phase ≠ .service →
    exec (.unknownRequestFrame (.unknownCode code f)) s = .next (s.leaving x (4 + f.body.length)).settle

theorem next_settle {t u : State} (same : t = u) :
    (Host.Outcome.next t.settle : Host.Outcome State Fault Refusal) = .next u.settle := congrArg _ (congrArg _ same)

theorem State.discards_of_takeFrame {x : Transaction} (discarded : ∀ (phase : Phase) (work : InWork) (count : Nat)
    (serve : State → Reply), phase ≠ .service → s.takeFrame phase work count serve = s.leaving x count) : s.Discards x where
  request _ _ written := State.exec_written written (discarded _ _ _ _ written)
  short1 _ _ written := next_settle (discarded _ _ _ _ written)
  short2 _ _ _ written := next_settle (discarded _ _ _ _ written)
  short3 _ _ _ _ written := next_settle (discarded _ _ _ _ written)
  unknownCode _ _ written := next_settle (discarded _ _ _ _ written)

theorem State.discards_pending {r : Response} (held : s.held = false) (pending : s.sl.transaction = .pending r) :
    s.Discards (.pending { r with lostRequest := true }) :=
  State.discards_of_takeFrame fun _ _ _ _ written => State.takeFrame_discarded written held pending

theorem State.discards_inWork {work : InWork} {lost : Bool} (held : s.held = false)
    (inWork : s.sl.transaction = .inWork work lost) : s.Discards (.inWork work true) :=
  State.discards_of_takeFrame fun _ _ _ _ written => State.takeFrame_lost written held inWork

/-- The service of the frame in work is among the part's own work. -/
theorem State.service_mem_ownWork {c : Instr} (held : s.held = false) (mem : c ∈ s.sl.transaction.service) :
    c ∈ s.ownWork := by
  unfold State.ownWork
  rw [if_neg (by simp [held])]
  exact List.mem_append_right _ mem

/-- A request in work is served as it would be at once, with LOST_REQUEST as recorded and no byte shifted out. -/
theorem State.exec_inWork {code : ReqCode} {f : ReqFrame} {lost : Bool} (held : s.held = false)
    (inWork : s.sl.transaction = .inWork (.request code (collect f.toFrame)) lost) (service : f.phase = .service)
    (atOnce : asksInTurn code = false ∨ frameOk code (collect f.toFrame) = false) :
    exec (commandOf code f) s = .next ((judge code (collect f.toFrame) (ownerOf code f.toFrame)
      (s.withTransaction .closed)).makeReady (.request code (collect f.toFrame)) lost s.sl.out).settle := by
  by_cases inTurn : asksInTurn code = false
  · rw [exec_commandOf code f s (.inl inTurn), State.request_inWork service held inWork]
  · have bad := atOnce.resolve_left inTurn
    rw [judge, if_pos (by simp [bad])]
    cases code with
    | readWatch => exact next_settle (State.requestInTurn_malformed service held inWork bad)
    | getStatus => exact next_settle (State.requestInTurn_malformed
        (start := .status s.statusView .serviceLink) service held inWork bad)
    | _ => exact absurd rfl inTurn

/-- The service of a request that is not in work changes nothing. -/
theorem State.exec_notInWork {code : ReqCode} {f : ReqFrame} (service : f.phase = .service) (held : s.held = false)
    (request : ∀ lost, s.sl.transaction ≠ .inWork (.request code (collect f.toFrame)) lost)
    (gathering : ∀ g lost, g.code = code → s.sl.transaction ≠ .inWork (.gathering (collect f.toFrame) g) lost) :
    exec (commandOf code f) s = .next s.settle := by
  by_cases inTurn : asksInTurn code = false
  · rw [exec_commandOf code f s (.inl inTurn), State.request, State.takeFrame_other service request]
  · cases code with
    | readWatch => exact next_settle (State.requestInTurn_other service held request gathering)
    | getStatus => exact next_settle (State.requestInTurn_other
        (start := .status s.statusView .serviceLink) service held request gathering)
    | _ => exact absurd rfl inTurn

/-- While RESTART_N is held a request has no effect (R180). -/
theorem State.exec_heldRequest (held : s.held = true) (code : ReqCode) (f : ReqFrame) :
    exec (commandOf code f) s = .next s.settle := by
  by_cases inTurn : asksInTurn code = false ∨ f.phase ≠ .service
  · rw [exec_commandOf code f s inTurn, State.request_held held]
  · obtain ⟨asks, phase⟩ := not_or.mp inTurn
    have service : f.phase = .service := not_not.mp phase
    have stands : ∀ serve start, s.requestInTurn f serve start = s := fun serve start => by
      rw [State.requestInTurn, service]
      exact if_pos held
    cases code with
    | readWatch => exact next_settle (stands _ _)
    | getStatus => exact next_settle (stands _ _)
    | _ => exact absurd rfl asks

end Transaction

/-- Settles O12: a frame is admitted, discarded or served by the transaction that is open. -/
theorem oneTransactionAtATime : Obligations.OneTransactionAtATime := by
  unfold Obligations.OneTransactionAtATime
  refine ⟨fun f => rfl, fun s held => ?_, fun s held => ?_⟩
  · intro left discards
    have discarded : ∀ {x : Transaction}, s.Discards x → discards x := fun ⟨request, short1, short2, short3, unknown⟩ =>
      ⟨request, short1, short2, short3, unknown⟩
    refine ⟨fun r pending => discarded (State.discards_pending held pending),
      fun work lost inWork => discarded (State.discards_inWork held inWork), fun closed => ?_, ?_, ?_, ?_, ?_, ?_⟩
    case refine_1 =>
      refine ⟨fun code f write => ?_, fun code => ?_, fun code tag => ?_, fun code tag b => ?_, fun code f write => ?_⟩
      · exact State.exec_written (by simp [write]) (State.takeFrame_written write held closed)
      · exact next_settle (State.takeFrame_written rfl held closed)
      · exact next_settle (State.takeFrame_written rfl held closed)
      · exact next_settle (State.takeFrame_written rfl held closed)
      · exact next_settle (State.takeFrame_written write held closed)
    case refine_2 =>
      intro code f lost inWork service
      refine ⟨⟨⟨(collect f.toFrame).frame, .service⟩, rfl, collect_frame f.toFrame, ?_⟩, fun atOnce => ?_⟩
      · exact State.service_mem_ownWork held (by rw [inWork]; exact List.mem_singleton_self _)
      · have written := State.exec_written (s := s.withTransaction .closed) (code := code) (f := f.at .whole)
          (by simp [ReqFrame.at]) (State.request_judged rfl held rfl)
        exact ⟨_, _, written, rfl, State.exec_inWork held inWork service atOnce⟩
    case refine_3 =>
      intro f taken lost inWork
      refine ⟨⟨(collect f.toFrame).frame, .service⟩, rfl, collect_frame f.toFrame, ?_⟩
      exact State.service_mem_ownWork held (by rw [inWork]; exact List.mem_singleton_self _)
    case refine_4 =>
      intro code tag lost inWork
      refine ⟨State.service_mem_ownWork held (by rw [inWork]; exact List.mem_singleton_self _), ?_⟩
      refine ⟨?_, fun b => ?_, fun zero => ?_, fun c f service named tagged => ?_⟩
      · exact next_settle (State.takeFrame_served (count := 2) rfl held inWork)
      · exact next_settle (State.takeFrame_served (count := 3) rfl held inWork)
      · subst zero
        exact next_settle (State.takeFrame_served (count := 1) rfl held inWork)
      · subst named tagged
        exact next_settle (State.takeFrame_served (count := 4 + f.body.length) service held inWork)
    case refine_5 =>
      intro code tag other
      refine ⟨?_, fun b => ?_, fun zero => ?_, fun c f service named tagged => ?_⟩
      · exact next_settle (State.takeFrame_other (count := 2) rfl other)
      · exact next_settle (State.takeFrame_other (count := 3) rfl other)
      · subst zero
        exact next_settle (State.takeFrame_other (count := 1) rfl other)
      · subst named tagged
        exact next_settle (State.takeFrame_other (count := 4 + f.body.length) service other)
    case refine_6 =>
      intro code f service request gathering
      exact State.exec_notInWork service held request gathering
  · refine ⟨State.exec_heldRequest held, fun n => next_settle (if_pos held), fun x => ?_⟩
    cases x with
    | incomplete | emptyWrite => rfl
    | otherCommand c count => exact next_settle (if_pos held)
    | short1 code phase => exact next_settle (State.takeFrame_held held)
    | short2 code tag phase => exact next_settle (State.takeFrame_held held)
    | short3 code tag b phase => exact next_settle (State.takeFrame_held held)
    | unknownCode code f => exact next_settle (State.takeFrame_held held)

end Sys2Proof.Machine
end

section
/-! PROOFS. The edit fault latch (R174, R175): O13. -/

namespace Sys2Proof.Machine

/-- An owner that accepts leaves the latch and answers by a code that does not latch. -/
inductive Edit.LeavesLatch (s : State) : Edit → Prop
  | refuse (status : Status) (subject : Nat) (index : Option Nat) : (Edit.refuse status subject index).LeavesLatch s
  | accept {t : State} {status : Status} {body : Body} (sl : t.sl.latch = s.sl.latch) (quiet : status.latches = false) :
    (Edit.accept t status body).LeavesLatch s

theorem Edit.LeavesLatch.ite {c : Prop} [Decidable c] {s : State} {status : Status} {subject : Nat} {index : Option Nat}
    {e : Edit} (h : e.LeavesLatch s) : (if c then Edit.refuse status subject index else e).LeavesLatch s := by
  split
  · exact .refuse ..
  · exact h

section Frames

variable (s : State) (n : Nat)

/-! ### The operations that a change request uses leave the Service Link -/

theorem State.onObject_sl (f : ObjectRec → ObjectRec) : (s.onObject n f).sl = s.sl := by
  unfold State.onObject
  split <;> rfl

theorem State.armNext_sl (p : PathRec) : (s.armNext n p).sl = s.sl := by
  rw [State.armNext_eq]

theorem State.activate_sl (p : PathRec) : (s.activate n p).sl = s.sl := State.armNext_sl ..

theorem State.overdue_sl (p : PathRec) : (s.overdue n p).sl = s.sl := by
  unfold State.overdue
  split
  · simp
  · rfl

theorem State.renewOverdue_sl : (s.renewOverdue n).sl = s.sl := by
  unfold State.renewOverdue
  dsimp only
  split
  · split
    · rw [State.overdue_sl, State.endCause_sl]
    · exact State.endCause_sl ..
  · exact State.endCause_sl ..

theorem State.setKind_sl (k : KindRec) : (s.setKind n k).sl = s.sl := State.onObject_sl ..

theorem State.throwExpiry_sl : (s.throwExpiry n).sl = s.sl := by
  unfold State.throwExpiry
  split
  · split
    · split
      · rw [State.beginCause_sl, State.setKind_sl]
      · rfl
    · rfl
  · rfl

theorem State.clearExpiry_sl : (s.clearExpiry n).sl = s.sl := by
  unfold State.clearExpiry
  split
  · split
    · split
      · rw [State.beginCause_sl, State.setKind_sl]
      · rfl
    · rfl
  · rfl

theorem State.amendObject_sl (r : ObjectRec) (a : Amendment) : (s.amendObject n r a).sl = s.sl := by
  unfold State.amendObject
  dsimp only
  split
  · rfl
  · split
    · rw [State.clearExpiry_sl, State.throwExpiry_sl, State.setObject_sl]
    · rfl

theorem State.loadPath_sl (headcode : Headcode) (day : Nat) (plans : List Plan) :
    (s.loadPath n headcode day plans).sl = s.sl := State.armIfDue_sl ..

theorem State.amendPoint_sl (p : PathRec) (index : Nat) (plan : Plan) : (s.amendPoint n p index plan).sl = s.sl := by
  unfold State.amendPoint
  dsimp only
  split
  · exact State.armIfDue_sl ..
  · rfl

theorem State.shiftPath_sl (p : PathRec) (delta : Int) : (s.shiftPath n p delta).sl = s.sl := by
  unfold State.shiftPath
  dsimp only
  split
  · exact State.armIfDue_sl ..
  · rw [State.renewOverdue_sl, State.disturb_sl, State.setPath_sl]

theorem State.endPath_sl (p : PathRec) (state : PathState) (date : Date) : (s.endPath n p state date).sl = s.sl := by
  simp [State.endPath]

end Frames

/-! ### Each owner -/

section Owners

variable {s : State} {body : List Byte}

open Edit.LeavesLatch

theorem editDefineObject_leavesLatch : (editDefineObject body s).LeavesLatch s := by
  unfold editDefineObject
  dsimp only
  split
  · exact refuse ..
  · exact ite (accept rfl rfl)

theorem editAmendObject_leavesLatch : (editAmendObject body s).LeavesLatch s := by
  unfold editAmendObject
  dsimp only
  split
  · exact refuse ..
  · split
    · exact refuse ..
    · exact ite (ite (accept (by rw [State.amendObject_sl]) rfl))

theorem editRetireObject_leavesLatch : (editRetireObject body s).LeavesLatch s := by
  refine ite ?_
  split
  · exact refuse ..
  · exact ite (accept rfl rfl)

theorem editLoadPath_leavesLatch : (editLoadPath body s).LeavesLatch s := by
  refine ite ?_
  split
  · exact refuse ..
  · refine ite ?_
    split
    · exact refuse ..
    · split
      · exact refuse ..
      · exact ite (ite (accept (by rw [State.loadPath_sl]) rfl))

theorem editAmendTimingPoint_leavesLatch : (editAmendTimingPoint body s).LeavesLatch s := by
  unfold editAmendTimingPoint
  dsimp only
  split
  · exact refuse ..
  · refine ite ?_
    split
    · exact refuse ..
    · exact ite (ite (ite (ite (ite (ite (accept (by rw [State.amendPoint_sl]) rfl))))))

theorem editShiftPath_leavesLatch : (editShiftPath body s).LeavesLatch s := by
  refine ite ?_
  split
  · exact refuse ..
  · exact ite (ite (ite (ite (accept (by rw [State.shiftPath_sl]) rfl))))

theorem editCopyPath_leavesLatch : (editCopyPath body s).LeavesLatch s := by
  refine ite ?_
  split
  · exact refuse ..
  · exact ite (ite (ite (ite (ite (accept (by rw [State.loadPath_sl]) rfl)))))

theorem editRepeatPath_leavesLatch {tag : Byte} : (editRepeatPath tag body s).LeavesLatch s := by
  refine ite ?_
  split
  · exact refuse ..
  · split
    · exact refuse ..
    · exact ite (ite (ite (ite (ite (accept rfl rfl)))))

theorem editArmPath_leavesLatch : (editArmPath body s).LeavesLatch s := by
  unfold editArmPath
  dsimp only
  split
  · exact refuse ..
  · split
    · exact accept (by rw [State.activate_sl]) rfl
    · exact refuse ..

theorem editCancelPath_leavesLatch : (editCancelPath body s).LeavesLatch s := by
  unfold editCancelPath
  dsimp only
  split
  · exact refuse ..
  · refine ite ?_
    split
    · exact accept (by rw [State.endPath_sl]) rfl
    · exact refuse ..

theorem editRetirePath_leavesLatch : (editRetirePath body s).LeavesLatch s := by
  unfold editRetirePath
  dsimp only
  split
  · exact refuse ..
  · exact ite (ite (accept rfl rfl))

end Owners

/-- Every change request is an edit at its owner. -/
theorem exists_edit_of_isChange {code : ReqCode} (f : ReqFrame) (changes : isChange code = true) : ∃ edit : State → Edit,
    (∀ s, exec (commandOf code f) s = (s.request code f (change code f.tag edit)).answer) ∧
      ∀ s, (edit s).LeavesLatch s := by
  cases code with
  | defineObject => exact ⟨_, fun _ => rfl, fun _ => editDefineObject_leavesLatch⟩
  | amendObject => exact ⟨_, fun _ => rfl, fun _ => editAmendObject_leavesLatch⟩
  | retireObject => exact ⟨_, fun _ => rfl, fun _ => editRetireObject_leavesLatch⟩
  | loadPath => exact ⟨_, fun _ => rfl, fun _ => editLoadPath_leavesLatch⟩
  | amendTimingPoint => exact ⟨_, fun _ => rfl, fun _ => editAmendTimingPoint_leavesLatch⟩
  | shiftPath => exact ⟨_, fun _ => rfl, fun _ => editShiftPath_leavesLatch⟩
  | copyPath => exact ⟨_, fun _ => rfl, fun _ => editCopyPath_leavesLatch⟩
  | repeatPath => exact ⟨_, fun _ => rfl, fun _ => editRepeatPath_leavesLatch⟩
  | armPath => exact ⟨_, fun _ => rfl, fun _ => editArmPath_leavesLatch⟩
  | cancelPath => exact ⟨_, fun _ => rfl, fun _ => editCancelPath_leavesLatch⟩
  | retirePath => exact ⟨_, fun _ => rfl, fun _ => editRetirePath_leavesLatch⟩
  | _ => exact absurd changes (by simp [isChange])

theorem Status.latches_iff (status : Status) : status.latches = true ↔ status ∈ [Status.numberInUse, .badObject,
    .outOfRange, .order, .poolFull, .storeFull, .notWhileRunning, .inUse, .stateConflict, .badHeadcode] := by
  cases status <;> simp [Status.latches]

/-- Settles O13: the owner refuses, by a code that latches or not, or accepts. -/
theorem editFaultLatchBlocksEdits : Obligations.EditFaultLatchBlocksEdits := by
  unfold Obligations.EditFaultLatchBlocksEdits
  intro code f s changes
  obtain ⟨edit, meaning, leaves⟩ := exists_edit_of_isChange f changes
  refine ⟨fun admits set => State.exec_blocked admits set (meaning s), fun admits => ?_⟩
  cases decided : edit s with
  | refuse status subject index =>
    cases latches : status.latches with
    | true =>
      refine ⟨_, _, State.exec_refused admits (meaning s) decided latches, rfl, rfl, rfl, .inr ⟨subject, index, rfl, rfl⟩, ?_⟩
      simpa [State.withRefusal] using (status.latches_iff.mp latches)
    | false =>
      have empty := admits.2
      refine ⟨_, _, State.exec_declined admits (meaning s) decided latches, rfl, rfl, rfl, .inl empty, ?_⟩
      rw [← Status.latches_iff, latches]
      simp [State.withReply, empty]
  | accept t status body =>
    have leavesHere := leaves s
    rw [decided] at leavesHere
    cases leavesHere with
    | accept sl quiet =>
      have empty : t.sl.latch = none := sl.trans admits.2
      refine ⟨_, _, State.exec_accepted admits (meaning s) decided, rfl, rfl, rfl, .inl empty, ?_⟩
      rw [← Status.latches_iff, quiet]
      simp [State.withReply, empty]

end Sys2Proof.Machine
end

section
/-! PROOFS. READ transfers and the bytes of a response (R169, R187): O14. -/

namespace Sys2Proof.Machine

/-! ### The READ transfer (R169) -/

section Read

variable {l : ServiceLink} {count : Nat}

theorem ServiceLink.readOut_pending {r : Response} (pending : l.transaction = .pending r) :
    l.readOut count = { l with
      out := r.bytes.take count ++ List.replicate (count - r.bytes.length) 0
      transaction := if r.bytes.length ≤ count then .closed else .pending r } := by
  have shifted : (r.bytes ++ List.replicate count 0).take count =
      r.bytes.take count ++ List.replicate (count - r.bytes.length) 0 := by
    rw [List.take_append, List.take_replicate, Nat.min_eq_left (Nat.sub_le ..)]
  unfold ServiceLink.readOut
  rw [pending]
  dsimp only
  rw [shifted]
  split
  · rfl
  · rw [← pending]

theorem ServiceLink.readOut_other (other : l.transaction = .closed ∨ ∃ work lost, l.transaction = .inWork work lost) :
    l.readOut count = { l with out := List.replicate count 0 } := by
  unfold ServiceLink.readOut
  obtain closed | ⟨work, lost, inWork⟩ := other
  · rw [closed]
  · rw [inWork]

theorem State.exec_readResponse {s : State} (held : s.held = false) :
    exec (.readResponse count) s = .next ({ s with sl := s.sl.readOut count } : State).settle :=
  next_settle (if_neg (by simp [held]))

end Read

/-! ### Widths (R187) -/

theorem Response.bytes_eq (r : Response) :
    r.bytes = [r.code, r.tag, BitVec.ofNat 8 r.status.code, if r.lostRequest then 1 else 0,
      BitVec.ofNat 8 (r.body.bytes.length / 256), BitVec.ofNat 8 r.body.bytes.length] ++ r.body.bytes := rfl

/-- The fields that a completion will fill are zero over the width of its kind's result. -/
theorem Slot.bytes_inFlight (kind : LongOp) (tag : Byte) (accepted : Date) : ∃ held,
    (Slot.inFlight kind tag accepted).bytes = held ++ List.replicate (16 + kind.resultWidth) 0 ∧ held.length = 17 := by
  refine ⟨one (Slot.inFlight kind tag accepted).freeCode ++ acceptedBytes kind tag accepted, ?_, by simp⟩
  have width : 14 + 1 + kind.resultWidth + 1 = 16 + kind.resultWidth := by omega
  simp [Slot.bytes, absentDone, absent, width]

theorem Slot.bytes_of_kind {c : Completion} {kind : LongOp} {result : LongResult} {width : Nat} (tag : Byte)
    (accepted : Date) (shows : c.result = result) (kinds : result.kind = kind) (fits : kind.resultWidth = width) :
    result.bytes.length = width ∧ (Slot.done c).bytes.length = 17 + (16 + width) ∧
      ∃ held, (Slot.inFlight kind tag accepted).bytes = held ++ List.replicate (16 + width) 0 ∧ held.length = 17 := by
  subst shows kinds fits
  refine ⟨length_longResult _, ?_, Slot.bytes_inFlight ..⟩
  rw [length_slot_done]
  omega

theorem pointBytes_eq (x : TimingPoint × Nat) : ∃ outcome, pointBytes x = BitVec.ofNat 8 x.2 :: x.1.plan.bytes ++ outcome ∧
    x.1.plan.bytes.length = 14 ∧ outcome.length = 20 ∧ (x.1.outcome = none → outcome = List.replicate 20 0) :=
  ⟨outcomeBytes x.1.outcome, rfl, length_plan _, length_outcome _, fun none => by rw [none]; rfl⟩

theorem latch_bytes (latch : Option LatchRecord) : (Body.latch latch).bytes.length = 8 ∧
    (latch = none → (Body.latch latch).bytes = List.replicate 8 0) := by
  refine ⟨length_optionalBytes (width := 7) latch length_latchRecord, ?_⟩
  rintro rfl
  rfl

/-- Settles O14. -/
theorem readTransferShiftsTheResponse : Obligations.ReadTransferShiftsTheResponse := by
  unfold Obligations.ReadTransferShiftsTheResponse
  refine ⟨fun n s held => ⟨fun r pending => ?_, fun other => ?_⟩, Response.bytes_eq, rfl, optionalBytes_none,
    length_date, length_stationQ, length_objectSummary, length_pathSummary, length_conditionView, pointBytes_eq,
    fun found next => rfl, fun found next => rfl, fun found => rfl, latch_bytes, ?_, ?_, ?_, fun v => rfl⟩
  · rw [State.exec_readResponse held, ServiceLink.readOut_pending pending]
  · rw [State.exec_readResponse held, ServiceLink.readOut_other other]
  · exact fun n tag accepted c _ shows => Slot.bytes_of_kind tag accepted shows rfl rfl
  · exact fun crc paths points disturbed tag accepted c _ shows => Slot.bytes_of_kind tag accepted shows rfl rfl
  · exact fun check tag accepted c _ shows => Slot.bytes_of_kind tag accepted shows rfl rfl

end Sys2Proof.Machine
end

section
/-! PROOFS. The readings of the Time Base, a link, a line and the settings: O16. -/

namespace Sys2Proof.Machine

theorem linkOf_eq {body : List Byte} {i : Fin 4} (h : (byteAt body 0).toNat = i.val) : linkOf body = some i := by
  simp [linkOf, h]

theorem linkOf_none {body : List Byte} (h : 4 ≤ (byteAt body 0).toNat) : linkOf body = none := dif_neg (by omega)

/-- Civil time is within its day, and stands behind the millisecond of day by whole days (R18). -/
theorem State.civilMs_lt (s : State) : s.civilMs < 86400000 := by
  unfold State.civilMs civilOf
  have low := Int.emod_nonneg (((s.stationMs % Config.msPerDay : Nat) : Int) + s.settings.boundaryHour * 3600000 +
    s.settings.civilOffset * 60000) (b := 86400000) (by decide)
  have high := Int.emod_lt_of_pos (((s.stationMs % Config.msPerDay : Nat) : Int) + s.settings.boundaryHour * 3600000 +
    s.settings.civilOffset * 60000) (b := 86400000) (by decide)
  exact (Int.toNat_lt low).mpr high

theorem State.exists_civilMs (s : State) : ∃ k : Int,
    (s.civilMs : Int) = ((s.tb.stationUs / 1000 % 86400000 : Nat) : Int) + s.settings.boundaryHour * 3600000 +
      s.settings.civilOffset * 60000 - k * 86400000 := by
  let z : Int := ((s.tb.stationUs / 1000 % 86400000 : Nat) : Int) + s.settings.boundaryHour * 3600000 +
    s.settings.civilOffset * 60000
  have value : (s.civilMs : Int) = z % 86400000 := Int.toNat_of_nonneg (Int.emod_nonneg z (by decide))
  exact ⟨z / 86400000, by rw [value, Int.emod_def, mul_comm]⟩

/-- Behind and ahead stand on the face, and lead from the position to the target and back (R137). -/
theorem distances_on_face {positions target position : Nat} (on : position < positions) (aims : target < positions) :
    (((target : Int) - position).emod positions).toNat < positions ∧
      (((position : Int) - target).emod positions).toNat < positions ∧
      (position + (((target : Int) - position).emod positions).toNat) % positions = target ∧
      (target + (((position : Int) - target).emod positions).toNat) % positions = position := by
  have round : ∀ a b : Nat, a < positions → b < positions →
      (((b : Int) - a).emod positions).toNat < positions ∧ (a + (((b : Int) - a).emod positions).toNat) % positions = b := by
    intro a b first second
    obtain le | lt := Nat.le_total a b
    · have value : ((b : Int) - a).emod positions = ((b - a : Nat) : Int) :=
        (Int.emod_eq_of_lt (a := (b : Int) - a) (by omega) (by omega)).trans (by omega)
      rw [value, Int.toNat_natCast]
      exact ⟨by omega, by rw [Nat.add_sub_cancel' le, Nat.mod_eq_of_lt second]⟩
    · obtain rfl | less := Nat.eq_or_lt_of_le lt
      · have value : ((b : Int) - b).emod positions = ((0 : Nat) : Int) := by
          rw [sub_self]
          exact Int.zero_emod _
        rw [value, Int.toNat_natCast]
        exact ⟨by omega, Nat.mod_eq_of_lt first⟩
      · have value : ((b : Int) - a).emod positions = ((b + positions - a : Nat) : Int) :=
          (Int.add_emod_right ((b : Int) - a) positions).symm.trans
            ((Int.emod_eq_of_lt (a := (b : Int) - a + positions) (by omega) (by omega)).trans (by omega))
        rw [value, Int.toNat_natCast, show a + (b + positions - a) = b + positions by omega, Nat.add_mod_right,
          Nat.mod_eq_of_lt second]
        exact ⟨by omega, rfl⟩
  obtain ⟨behind, there⟩ := round position target on aims
  obtain ⟨ahead, back⟩ := round target position aims on
  exact ⟨behind, ahead, there, back⟩

/-- Settles O16: each reading is its owner's view of the records. -/
theorem readingsAnswerAndChangeNothing : Obligations.ReadingsAnswerAndChangeNothing := by
  unfold Obligations.ReadingsAnswerAndChangeNothing
  intro f s
  refine ⟨fun admits => State.exec_replies admits rfl rfl, fun admits => State.exec_replies admits rfl ?_,
    fun admits => State.exec_replies admits rfl rfl, fun i admits named => State.exec_replies admits rfl ?_,
    fun admits out => State.exec_replies admits rfl ?_, fun admits out => State.exec_replies admits rfl ?_,
    fun i admits named => ?_, s.civilMs_lt, s.exists_civilMs⟩
  case refine_1 =>
    unfold serveGetTimeStatus TimeBase.status TimeBase.holdover
    cases s.tb.holdoverStart <;> rfl
  case refine_2 =>
    rw [serveReadLink, linkOf_eq named]
    rfl
  case refine_3 => rw [serveReadLink, linkOf_none out]
  case refine_4 => rw [serveReadLine, linkOf_none out]
  case refine_5 =>
    intro l
    subst l
    have reads : ∀ v, s.lineView i = v → s.repliesOnly .readLine f .ok (.line v) := fun v view =>
      State.exec_replies admits rfl (by rw [serveReadLine, linkOf_eq named, ← view])
    cases kind : (s.line i).kind with
    | minute =>
      refine ⟨reads _ ?_, fun position on => distances_on_face on (Nat.mod_lt _ (by decide))⟩
      simp only [State.lineView, LineView.mk.injEq, true_and]
      refine ⟨kind, ?_, ?_, ?_, ?_⟩
      · unfold State.timerLeft
        cases (s.line i).state <;> rfl
      · cases (s.line i).state <;> simp [LineState.driving]
      · cases (s.line i).state <;> simp [LineState.driving, kind]
      · unfold State.distances DialKind.target DialKind.distance
        dsimp only
        rw [kind]
        cases (s.line i).dial <;> rfl
    | halfMinute =>
      refine ⟨reads _ ?_, fun position on => distances_on_face on (Nat.mod_lt _ (by decide))⟩
      simp only [State.lineView, LineView.mk.injEq, true_and]
      refine ⟨kind, ?_, ?_, ?_, ?_⟩
      · unfold State.timerLeft
        cases (s.line i).state <;> rfl
      · cases (s.line i).state <;> simp [LineState.driving]
      · cases (s.line i).state <;> simp [LineState.driving, kind]
      · unfold State.distances DialKind.target DialKind.distance
        dsimp only
        rw [kind]
        cases (s.line i).dial <;> rfl

end Sys2Proof.Machine
end

section
/-! PROOFS. Trimmed time, slewing, and time going on where nothing is due (R1, R3, R14; log 1): O17. -/

namespace Sys2Proof.Machine

/-! ### Slewing (R14) -/

/-- Slewing by two counts in turn is slewing by their sum. -/
theorem slewBy_add (r : Int) (a b : Nat) : slewBy r (a + b) =
    ((slewBy (slewBy r a).1 b).1, (slewBy r a).2 + (slewBy (slewBy r a).1 b).2) := by
  unfold slewBy
  dsimp only
  split_ifs <;> ext <;> dsimp only <;> omega

theorem slewBy_correction (r : Int) (k : Nat) : -(k : Int) ≤ (slewBy r k).2 := by
  unfold slewBy
  split <;> dsimp only <;> omega

/-! ### The trimmed rate (R1) -/

/-- The trimmed microseconds of a number of oscillator microseconds, in 10^-9 µs with the fraction carried. -/
def TimeBase.total (t : TimeBase) (k : Nat) : Nat := k * (1000000000 + t.trim).toNat + t.fraction

/-- The whole microseconds of trimmed time that run in a number of oscillator microseconds. -/
def TimeBase.run (t : TimeBase) (k : Nat) : Nat := t.total k / 1000000000

/-- The Time Base after a number of oscillator microseconds, station time below its last. -/
def TimeBase.ran (t : TimeBase) (k : Nat) : TimeBase :=
  { t with
    stationUs := ((t.stationUs : Int) + t.run k + (slewBy t.residual ((t.slewPhase + t.run k) / 1000)).2).toNat
    residual := (slewBy t.residual ((t.slewPhase + t.run k) / 1000)).1
    elapsed := t.elapsed + (t.oscPhase + k) / 1000
    oscPhase := (t.oscPhase + k) % 1000
    fraction := t.total k % 1000000000
    slewPhase := (t.slewPhase + t.run k) % 1000 }

section Rate

variable {t : TimeBase}

/-- What one oscillator microsecond adds, with the fraction carried. -/
theorem TimeBase.trimmedAdvance_total (k : Nat) : trimmedAdvance t.trim (t.total k % 1000000000) =
    (t.run (k + 1) - t.run k, t.total (k + 1) % 1000000000) := by
  have next : t.total (k + 1) = (1000000000 + t.trim).toNat + t.total k := by
    simp only [TimeBase.total]
    ring
  unfold trimmedAdvance TimeBase.run
  rw [next]
  ext <;> dsimp only <;> omega

theorem TimeBase.run_le_succ (k : Nat) : t.run k ≤ t.run (k + 1) :=
  Nat.div_le_div_right (by simp only [TimeBase.total, Nat.succ_mul]; omega)

/-- Before any microsecond the Time Base stands as it is. -/
theorem TimeBase.ran_zero (fraction : t.fraction < 1000000000) (slew : t.slewPhase < 1000) (osc : t.oscPhase < 1000) :
    t.ran 0 = t := by
  have run : t.run 0 = 0 := by
    simp only [TimeBase.run, TimeBase.total]
    omega
  have none : t.slewPhase / 1000 = 0 := by omega
  have total : t.total 0 % 1000000000 = t.fraction := by
    simp only [TimeBase.total]
    omega
  simp [TimeBase.ran, run, none, total, slewBy, Nat.mod_eq_of_lt slew, Nat.mod_eq_of_lt osc, Nat.div_eq_of_lt osc]

/-- One more microsecond, up to the end of range. -/
theorem TimeBase.tick_ran (k : Nat) (free : t.rangeHold = false) (slew : t.slewPhase < 1000) :
    (t.ran k).tick = { t.ran (k + 1) with stationUs := min Config.lastUs (t.ran (k + 1)).stationUs } := by
  have le := t.run_le_succ k
  have millis : (t.slewPhase + t.run (k + 1)) / 1000 = (t.slewPhase + t.run k) / 1000 +
      ((t.slewPhase + t.run k) % 1000 + (t.run (k + 1) - t.run k)) / 1000 := by omega
  have bound := slewBy_correction t.residual ((t.slewPhase + t.run k) / 1000)
  have advance : trimmedAdvance (t.ran k).trim (t.ran k).fraction =
      (t.run (k + 1) - t.run k, t.total (k + 1) % 1000000000) := t.trimmedAdvance_total k
  have slews := slewBy_add t.residual ((t.slewPhase + t.run k) / 1000)
    (((t.slewPhase + t.run k) % 1000 + (t.run (k + 1) - t.run k)) / 1000)
  rw [← millis] at slews
  unfold TimeBase.tick
  rw [if_neg (by simpa [TimeBase.ran] using free), advance]
  simp only [TimeBase.ran, TimeBase.mk.injEq, slews, true_and, and_true]
  refine ⟨?_, by omega, by omega, by omega⟩
  congr 2
  omega

/-- What a microsecond keeps of the rate. -/
theorem TimeBase.rate_repeat (k : Nat) (fraction : t.fraction < 1000000000) (slew : t.slewPhase < 1000) :
    (Nat.repeat TimeBase.tick k t).rangeHold = t.rangeHold ∧ (Nat.repeat TimeBase.tick k t).trim = t.trim ∧
      (Nat.repeat TimeBase.tick k t).fraction < 1000000000 ∧ (Nat.repeat TimeBase.tick k t).slewPhase < 1000 := by
  induction k with
  | zero => exact ⟨rfl, rfl, fraction, slew⟩
  | succ k ih =>
    obtain ⟨hold, trim, fraction, slew⟩ := ih
    rw [Nat.repeat]
    unfold TimeBase.tick
    split
    · exact ⟨hold, trim, fraction, slew⟩
    · exact ⟨hold, trim, Nat.mod_lt _ (by decide), Nat.mod_lt _ (by decide)⟩

/-- Station time once at the end of its range stays there. -/
theorem TimeBase.lastUs_le_tick (slew : t.slewPhase < 1000) (reached : Config.lastUs ≤ t.stationUs) :
    Config.lastUs ≤ t.tick.stationUs := by
  unfold TimeBase.tick
  split
  · exact reached
  · have bound := slewBy_correction t.residual ((t.slewPhase + (trimmedAdvance t.trim t.fraction).1) / 1000)
    exact Nat.le_min.mpr ⟨le_rfl, by omega⟩

/-- Any number of oscillator microseconds that stay below the end of range. -/
theorem TimeBase.repeat_tick (free : t.rangeHold = false) (fraction : t.fraction < 1000000000)
    (slew : t.slewPhase < 1000) (osc : t.oscPhase < 1000) (k : Nat) :
    (Nat.repeat TimeBase.tick k t).stationUs < Config.lastUs → Nat.repeat TimeBase.tick k t = t.ran k := by
  induction k with
  | zero => exact fun _ => (TimeBase.ran_zero fraction slew osc).symm
  | succ k ih =>
    intro below
    obtain ⟨-, -, -, slewThen⟩ := TimeBase.rate_repeat k fraction slew
    have before : (Nat.repeat TimeBase.tick k t).stationUs < Config.lastUs := by
      by_contra reached
      exact absurd (TimeBase.lastUs_le_tick slewThen (not_lt.mp reached)) (not_le.mpr below)
    rw [Nat.repeat, ih before, TimeBase.tick_ran k free slew] at below ⊢
    have whole : min Config.lastUs (t.ran (k + 1)).stationUs = (t.ran (k + 1)).stationUs := by
      dsimp only at below
      omega
    rw [whole]

/-- Under the end-of-range hold only the elapsed count runs (R2). -/
theorem TimeBase.repeat_tick_hold (hold : t.rangeHold = true) (osc : t.oscPhase < 1000) (k : Nat) :
    Nat.repeat TimeBase.tick k t =
      { t with elapsed := t.elapsed + (t.oscPhase + k) / 1000, oscPhase := (t.oscPhase + k) % 1000 } := by
  induction k with
  | zero => simp [Nat.repeat, Nat.mod_eq_of_lt osc, Nat.div_eq_of_lt osc]
  | succ k ih =>
    rw [Nat.repeat, ih, TimeBase.tick, if_pos hold]
    simp only [TimeBase.mk.injEq, true_and, and_true]
    omega

end Rate

/-! ### Time going on (log 1) -/

section Quiet

variable {s : State}

theorem State.timedEvents_nil (h : s.quiet) : s.timedEvents = [] := by
  obtain ⟨range, running⟩ := h
  rw [State.timedEvents, whenDue_false _ (TimeBase.not_rangeReached range), List.nil_append]
  split
  · rfl
  · next free =>
    obtain ⟨gap, holdover, message, links, objects, lines, -⟩ := running (by simpa using free)
    have limits : s.objects.flatMap (fun e => e.2.dueLimit e.1 s.elapsed) = [] :=
      List.flatMap_eq_nil_iff.mpr fun e mem => ObjectRec.dueLimit_nil (objects e mem).1 (objects e mem).2
    rw [State.dueAtTimeBase_nil gap holdover message, List.flatMap_eq_nil_iff.mpr fun i _ => State.dueAtLink_nil (links i),
      limits, List.flatMap_eq_nil_iff.mpr fun i _ => State.dueAtLine_nil (lines i), whenDue_false]
    · rfl
    · simp [State.not_targetChanged (lines _)]

theorem State.ownWork_nil (h : s.quiet) : s.ownWork = [] := by
  obtain ⟨-, running⟩ := h
  unfold State.ownWork
  split
  · rfl
  · next free =>
    obtain ⟨-, -, -, links, -, -, answers, events, tcSent, scSent, paths, repeating, digest, saving, transaction⟩ :=
      running (by simpa using free)
    have loaded : s.tc.service = .serving → ∀ e ∈ s.tc.paths, e.2.state = .loaded → s.tb.stationUs / 1000 < e.2.activation :=
      fun serving e mem => (paths serving e mem).1
    have early : s.tc.service = .serving → ∀ e ∈ s.tc.paths, ∀ d, e.2.deadline = some d →
        ((s.tb.stationUs / 1000 : Nat) : Int) < d.time := fun serving e mem => (paths serving e mem).2
    have service : s.sl.transaction.service = [] := by
      cases now : s.sl.transaction with
      | inWork work lost => exact absurd now (transaction work lost)
      | _ => rfl
    rw [List.flatMap_eq_nil_iff.mpr fun i _ => State.headEvent_nil (links i), State.dueActivation_none loaded,
      State.dueDeadline_none .overdue early, State.dueDeadline_none .lost early, State.dueDeadline_none .retire early,
      answers, events, tcSent, scSent, repeating, digest, saving, service]
    rfl

theorem State.step_quiet (empty : s.pending = []) (h : s.quiet) : step s = .next { s with tb := s.tb.tick } := by
  have idles : step s = s.idle := by
    unfold step
    split
    · next front => exact absurd (empty.symm.trans front) (by simp)
    · rfl
  rw [idles, State.idle, State.timedEvents_nil h, State.ownWork_nil h]
  rfl

end Quiet

/-- Settles O17: the Time Base after any number of microseconds is `TimeBase.ran`. -/
theorem trimmedRateIsExact : Obligations.TrimmedRateIsExact := by
  unfold Obligations.TrimmedRateIsExact
  refine ⟨?_, fun k t hold osc => TimeBase.repeat_tick_hold hold osc k, fun s => State.step_quiet⟩
  intro k t free low high fraction slew osc below
  have ran := TimeBase.repeat_tick free fraction slew osc k below
  have bound := slewBy_correction t.residual ((t.slewPhase + t.run k) / 1000)
  intro u total run moved
  have station : u.stationUs =
      ((t.stationUs : Int) + t.run k + (slewBy t.residual ((t.slewPhase + t.run k) / 1000)).2).toNat := by
    rw [show u = t.ran k from ran]
    rfl
  have residual : u.residual = (slewBy t.residual ((t.slewPhase + t.run k) / 1000)).1 := by
    rw [show u = t.ran k from ran]
    rfl
  have runs : run = t.run k := rfl
  refine ⟨?_, fun positive => ?_, fun negative => ?_⟩
  · rw [show u = t.ran k from ran]
    rfl
  · have slews : slewBy t.residual ((t.slewPhase + t.run k) / 1000) = (t.residual - moved, -(moved : Int)) :=
      if_neg (not_lt.mpr positive)
    rw [slews] at station residual bound
    exact ⟨residual, by omega⟩
  · have slews : slewBy t.residual ((t.slewPhase + t.run k) / 1000) = (t.residual + moved, (moved : Int)) :=
      if_pos negative
    rw [slews] at station residual
    exact ⟨residual, by omega⟩

end Sys2Proof.Machine
end

section
/-! PROOFS. A valid pulse in ACQUIRE, in LOCKED, in HOLDOVER and in DRIFT (R8 to R10, R13, R15, R16, R22): O19 to O21. -/

namespace Sys2Proof.Machine

theorem lockBand_eq : Config.lockBand = 2000 := rfl

theorem stepThreshold_eq : Config.stepThreshold = 500000 := rfl

/-! ### In ACQUIRE (R8) -/

section Acquire

variable {t : TimeBase} {o : Int} {ref : Nat}

theorem TimeBase.acquirePulse_counts (near : o.natAbs ≤ 2000) (few : t.good < 7) :
    t.acquirePulse o ref = ({ t with residual := o, good := t.good + 1 }, false) := by
  rw [TimeBase.acquirePulse, magnitude_eq, lockBand_eq, if_pos near, if_neg (by omega)]

theorem TimeBase.acquirePulse_locks (near : o.natAbs ≤ 2000) (enough : 7 ≤ t.good) : t.acquirePulse o ref =
    ({ t with residual := o, good := 8, discipline := .locked, outliers := 0 }, false) := by
  rw [TimeBase.acquirePulse, magnitude_eq, lockBand_eq, if_pos near, if_pos (by omega)]

theorem TimeBase.acquirePulse_slews (far : 2000 < o.natAbs) (within : o.natAbs ≤ 500000) :
    t.acquirePulse o ref = ({ t with residual := o, good := 0 }, false) := by
  rw [TimeBase.acquirePulse, magnitude_eq, lockBand_eq, stepThreshold_eq, if_neg (Nat.not_le.mpr far), if_pos within]

theorem TimeBase.acquirePulse_steps (beyond : 500000 < o.natAbs) :
    t.acquirePulse o ref = ({ t.stepTo ref with good := 0 }, true) := by
  have far : 2000 < o.natAbs := by omega
  rw [TimeBase.acquirePulse, magnitude_eq, lockBand_eq, stepThreshold_eq, if_neg (Nat.not_le.mpr far),
    if_neg (Nat.not_le.mpr beyond)]

end Acquire

/-! ### The edge, by what the discipline state makes of the pulse -/

section Edge

variable {s : State} {m : RefMsg} {x tb : TimeBase} {o : Int} {ref : Nat}

/-- The conditions of the Time Base once a pulse has been handled (R22). -/
def TimeBase.condsAfter (x : TimeBase) : CondSet :=
  if x.discipline = .acquire then (x.conds.without .referenceLost).without .holdoverExpired else x.conds

variable (held : s.held = false) (message : s.tb.heldMsg = some m) (valid : m.valid = true)
  (reference : m.day * 86400000000 + m.second * 1000000 = ref) (offset : (s.tb.stationUs : Int) - ref = o)

include held message valid reference offset

theorem State.exec_refPpsEdge_quiet (pulse : ({ s.tb.edge with lastOffset := some o } : TimeBase).pulse o ref = (x, false))
    (quality : x.discipline.quality = s.tb.discipline.quality) (after : { x.afterPulse with conds := x.condsAfter } = tb) :
    exec .refPpsEdge s = .next (s.withTimeBase tb []).settle := by
  rw [State.exec_refPpsEdge held message valid, reference, State.validPulse_quiet offset pulse rfl quality, ← after]
  rfl

theorem State.exec_refPpsEdge_changes
    (pulse : ({ s.tb.edge with lastOffset := some o } : TimeBase).pulse o ref = (x, false))
    (quality : x.discipline.quality ≠ s.tb.discipline.quality) (after : { x.afterPulse with conds := x.condsAfter } = tb) :
    exec .refPpsEdge s = .next (s.withTimeBase tb [⟨x.discipline.quality, x.stationUs, none⟩]).settle := by
  rw [State.exec_refPpsEdge held message valid, reference, State.validPulse_changes offset pulse rfl quality, ← after]
  rfl

theorem State.exec_refPpsEdge_steps
    (pulse : ({ s.tb.edge with lastOffset := some o } : TimeBase).pulse o ref = (x, true))
    (acquire : x.discipline = .acquire) (recorded : x.lastStep = some (-o)) (target : x.stationUs = ref)
    (after : { x.afterPulse with
      conds := ((x.conds.raised .timeStepped ⟨ref / 1000, .holdover, .observed⟩ x.elapsed
        (.timeStepped (-o) .reference)).without .referenceLost).without .holdoverExpired } = tb) :
    exec .refPpsEdge s = .next (s.withTimeBase tb [⟨.holdover, ref, some ⟨s.tb.stationUs, ref, -o⟩⟩]).settle := by
  rw [State.exec_refPpsEdge held message valid, reference, State.validPulse_steps offset pulse rfl acquire recorded target,
    ← after]

/-- Beyond the step threshold ACQUIRE steps, and counts from 0 (R8, R15). -/
theorem State.exec_refPpsEdge_acquireSteps (acquire : s.tb.discipline = .acquire) (running : s.tb.rangeHold = false)
    (beyond : 500000 < o.natAbs) : exec .refPpsEdge s =
      .next (s.withTimeBase { (((s.tb.captured o).steppedBy o ref).recorded).acquiring with good := 0 }
        [⟨.holdover, ref, some ⟨s.tb.stationUs, ref, -o⟩⟩]).settle := by
  have handles := TimeBase.pulse_acquire (t := { s.tb.edge with lastOffset := some o }) o ref acquire
  refine State.exec_refPpsEdge_steps held message valid reference offset
    (handles.trans (TimeBase.acquirePulse_steps beyond)) acquire (by simp [TimeBase.stepTo, TimeBase.edge, ← offset]) rfl ?_
  simp [TimeBase.afterPulse, TimeBase.edge, TimeBase.captured, TimeBase.recorded, TimeBase.stepTo, TimeBase.steppedBy,
    TimeBase.acquiring, acquire, running, ← offset]

end Edge

/-- Settles O19: by the band that the offset lies in. -/
theorem pulseInAcquire : Obligations.PulseInAcquire := by
  unfold Obligations.PulseInAcquire
  intro s m held acquire running message valid ref o
  have reference : m.day * 86400000000 + m.second * 1000000 = ref := rfl
  have offset : (s.tb.stationUs : Int) - ref = o := rfl
  clear_value o
  clear_value ref
  intro slewed answers
  have handles := TimeBase.pulse_acquire (t := { s.tb.edge with lastOffset := some o }) o ref acquire
  refine ⟨fun near few => ?_, fun near enough => ?_, fun far within => ?_, fun beyond => ?_⟩
  · refine State.exec_refPpsEdge_quiet held message valid reference offset
      (handles.trans (TimeBase.acquirePulse_counts near few)) rfl ?_
    simp [slewed, TimeBase.condsAfter, TimeBase.afterPulse, TimeBase.edge, TimeBase.captured, TimeBase.recorded,
      TimeBase.acquiring, acquire, running]
  · refine State.exec_refPpsEdge_changes held message valid reference offset
      (handles.trans (TimeBase.acquirePulse_locks near enough)) (by simp [acquire, Discipline.quality]) ?_
    simp [slewed, TimeBase.condsAfter, TimeBase.afterPulse, TimeBase.edge, TimeBase.captured, TimeBase.recorded, running]
  · refine State.exec_refPpsEdge_quiet held message valid reference offset
      (handles.trans (TimeBase.acquirePulse_slews far within)) rfl ?_
    simp [slewed, TimeBase.condsAfter, TimeBase.afterPulse, TimeBase.edge, TimeBase.captured, TimeBase.recorded,
      TimeBase.acquiring, acquire, running]
  · exact State.exec_refPpsEdge_acquireSteps held message valid reference offset acquire running beyond

/-- Settles O20: an offset within the step threshold, an outlier, or the third outlier in a row. -/
theorem pulseInLocked : Obligations.PulseInLocked := by
  unfold Obligations.PulseInLocked
  intro s m held locked running message valid ref o
  have reference : m.day * 86400000000 + m.second * 1000000 = ref := rfl
  have offset : (s.tb.stationUs : Int) - ref = o := rfl
  clear_value o
  clear_value ref
  intro noted answers
  have handles := TimeBase.pulse_locked (t := { s.tb.edge with lastOffset := some o }) o ref locked
  rw [magnitude_eq, stepThreshold_eq] at handles
  refine ⟨fun within => ?_, fun beyond few => ?_, fun beyond third => ?_⟩
  · rw [if_pos within] at handles
    refine State.exec_refPpsEdge_quiet held message valid reference offset handles rfl ?_
    simp [noted, TimeBase.condsAfter, TimeBase.afterPulse, TimeBase.edge, TimeBase.captured, TimeBase.recorded, locked,
      running, trimUpdate_eq]
  · rw [if_neg (Nat.not_le.mpr beyond), if_neg (by simp only [TimeBase.edge]; omega)] at handles
    refine State.exec_refPpsEdge_quiet held message valid reference offset handles rfl ?_
    simp [noted, TimeBase.condsAfter, TimeBase.afterPulse, TimeBase.edge, TimeBase.captured, TimeBase.recorded, locked,
      running]
  · rw [if_neg (Nat.not_le.mpr beyond), if_pos (by simp only [TimeBase.edge]; omega)] at handles
    refine State.exec_refPpsEdge_steps held message valid reference offset handles rfl (by simp [TimeBase.stepTo, TimeBase.edge, ← offset])
      rfl ?_
    simp [TimeBase.afterPulse, TimeBase.edge, TimeBase.captured, TimeBase.recorded, TimeBase.stepTo, TimeBase.steppedBy,
      TimeBase.acquiring, running, ← offset]

/-- Settles O21: HOLDOVER handles the pulse as ACQUIRE with a good-count of 0; DRIFT steps or slews to ACQUIRE, or under
the hold counts an outlier. -/
theorem pulseEndsHoldoverAndDrift : Obligations.PulseEndsHoldoverAndDrift := by
  unfold Obligations.PulseEndsHoldoverAndDrift
  intro s m held message valid ref o
  have reference : m.day * 86400000000 + m.second * 1000000 = ref := rfl
  have offset : (s.tb.stationUs : Int) - ref = o := rfl
  clear_value o
  clear_value ref
  intro slewed stepped step answers
  refine ⟨fun holdover running => ?_, fun drift running => ?_, fun drift hold => ?_⟩
  · have handles := TimeBase.pulse_holdover (t := { s.tb.edge with lastOffset := some o }) o ref holdover
    refine ⟨fun near => ?_, fun far within => ?_, fun beyond => ?_⟩
    · refine State.exec_refPpsEdge_quiet held message valid reference offset
        (handles.trans (TimeBase.acquirePulse_counts near (by simp))) (by rw [holdover]; rfl) ?_
      simp [slewed, TimeBase.condsAfter, TimeBase.afterPulse, TimeBase.edge, TimeBase.captured, TimeBase.recorded,
        TimeBase.acquiring, running]
    · refine State.exec_refPpsEdge_quiet held message valid reference offset
        (handles.trans (TimeBase.acquirePulse_slews far within)) (by rw [holdover]; rfl) ?_
      simp [slewed, TimeBase.condsAfter, TimeBase.afterPulse, TimeBase.edge, TimeBase.captured, TimeBase.recorded,
        TimeBase.acquiring, running]
    · refine State.exec_refPpsEdge_steps held message valid reference offset
        (handles.trans (TimeBase.acquirePulse_steps beyond)) rfl (by simp [TimeBase.stepTo, TimeBase.edge, ← offset]) rfl ?_
      simp [stepped, TimeBase.afterPulse, TimeBase.edge, TimeBase.captured, TimeBase.recorded, TimeBase.stepTo,
        TimeBase.steppedBy, TimeBase.acquiring, running, ← offset]
  · have handles := TimeBase.pulse_drift (t := { s.tb.edge with lastOffset := some o }) o ref drift
    rw [if_neg (by simp [TimeBase.edge, running]), magnitude_eq, stepThreshold_eq] at handles
    refine ⟨fun within => ?_, fun beyond => ?_⟩
    · rw [if_neg (Nat.not_lt.mpr within)] at handles
      refine State.exec_refPpsEdge_changes held message valid reference offset handles (by simp [drift, Discipline.quality]) ?_
      simp [slewed, TimeBase.condsAfter, TimeBase.afterPulse, TimeBase.edge, TimeBase.captured, TimeBase.recorded,
        TimeBase.acquiring, running]
    · rw [if_pos beyond] at handles
      refine State.exec_refPpsEdge_steps held message valid reference offset handles rfl
        (by simp [TimeBase.stepTo, TimeBase.edge, ← offset]) rfl ?_
      simp [stepped, TimeBase.afterPulse, TimeBase.edge, TimeBase.captured, TimeBase.recorded, TimeBase.stepTo,
        TimeBase.steppedBy, TimeBase.acquiring, running, ← offset]
  · have handles := TimeBase.pulse_drift (t := { s.tb.edge with lastOffset := some o }) o ref drift
    rw [if_pos (show ({ s.tb.edge with lastOffset := some o } : TimeBase).rangeHold = true from hold)] at handles
    have outlier := State.exec_refPpsEdge_quiet held message valid reference offset handles rfl rfl
    rw [outlier]
    simp [State.withTimeBase, TimeBase.condsAfter, TimeBase.afterPulse, TimeBase.edge, drift, hold]

end Sys2Proof.Machine
end

section
/-! PROOFS. The timers of the Time Base, SET TIME, and the reference message (R2, R4, R5, R11, R12, R19, R22): O22 to O24. -/

namespace Sys2Proof.Machine

theorem lastUs_eq : Config.lastUs = 65536 * 86400000000 - 1 := rfl

theorem referenceGap_eq : Config.referenceGap = 3000000 := rfl

/-! ### When a timer is due -/

section Due

variable {s : State}

theorem TimeBase.gapExpired_iff {t : TimeBase} : t.gapExpired = true ↔
    ∃ start, (t.discipline = .acquire ∨ t.discipline = .locked) ∧ t.gapStart = some start ∧
      start + 3000000 ≤ t.stationUs := by
  unfold TimeBase.gapExpired
  split
  · next start running =>
    simp only [Bool.and_eq_true, Bool.or_eq_true, decide_eq_true_iff, running, Option.some.injEq]
    rw [referenceGap_eq]
    exact ⟨fun ⟨due, disciplined⟩ => ⟨start, disciplined, rfl, due⟩,
      fun ⟨_, disciplined, same, due⟩ => ⟨same ▸ due, disciplined⟩⟩
  · next stopped => simp [stopped]

theorem State.holdoverReached_iff : s.holdoverReached = true ↔
    ∃ start, s.tb.discipline = .holdover ∧ s.tb.holdoverStart = some start ∧
      s.settings.holdoverLimit * 60000 ≤ ((s.tb.elapsed - start : Nat) : Int) := by
  unfold State.holdoverReached TimeBase.holdover
  cases s.tb.holdoverStart <;> simp

theorem TimeBase.rangeReached_iff {t : TimeBase} :
    t.rangeReached = true ↔ t.rangeHold = false ∧ 65536 * 86400000000 - 1 ≤ t.stationUs := by
  rw [TimeBase.rangeReached, Bool.and_eq_true, decide_eq_true_iff, lastUs_eq, Bool.not_eq_true', and_comm]

end Due

/-! ### What an expiry leaves -/

section Expiry

variable {s : State} {tb : TimeBase} {sent : List Announcement}

/-- The details of the two sustained causes of the Time Base (R22). -/
def State.lostDetail (s : State) : Detail := .referenceLost (s.tb.lastPulse.map (· / 1000))

def State.expiredDetail (s : State) : Detail := .holdoverExpired s.settings.holdoverLimit.toNat

theorem State.beginReferenceLost_withTimeBase : (s.withTimeBase tb sent).beginReferenceLost =
    s.withTimeBase { tb with
      conds := (s.withTimeBase tb sent).withCause tb.conds .referenceLost (s.withTimeBase tb sent).lostDetail } sent :=
  State.beginCause_timeBase ..

theorem State.beginHoldoverExpired_withTimeBase : (s.withTimeBase tb sent).beginHoldoverExpired =
    s.withTimeBase { tb with
      conds := (s.withTimeBase tb sent).withCause tb.conds .holdoverExpired s.expiredDetail } sent :=
  State.beginCause_timeBase ..

/-- A change of the Time Base that does not step is announced where it changes the quality (R13). -/
theorem State.announceFrom_tb : ({ s with tb := tb } : State).announceFrom s false =
    s.withTimeBase tb (if tb.discipline.quality = s.tb.discipline.quality then []
      else [⟨tb.discipline.quality, tb.stationUs, none⟩]) :=
  State.announceFrom_still ..

theorem State.referenceGap_due (due : s.tb.gapExpired = true) : s.referenceGap = (s.withTimeBase s.tb.enterHoldover
    (if Quality.holdover = s.tb.discipline.quality then [] else [⟨.holdover, s.tb.stationUs, none⟩])).beginReferenceLost := by
  rw [State.referenceGap, if_pos due, State.announceFrom_tb]
  rfl

theorem State.holdoverLimit_due (due : s.holdoverReached = true) :
    s.holdoverLimit = (s.withTimeBase { s.tb with discipline := .drift }
      [⟨.unsync, s.tb.stationUs, none⟩]).beginHoldoverExpired := by
  obtain ⟨start, holdover, -⟩ := State.holdoverReached_iff.mp due
  rw [State.holdoverLimit, if_pos due, State.announceFrom_tb, if_neg (by simp [holdover, Discipline.quality])]
  rfl

theorem State.endOfRange_due (due : s.tb.rangeReached = true) : s.endOfRange =
    if s.held then s.withTimeBase s.tb.enterRangeHold
      (if s.tb.discipline.quality = .unsync then [] else [⟨.unsync, s.tb.stationUs, none⟩])
    else (s.withTimeBase s.tb.enterRangeHold
      (if s.tb.discipline.quality = .unsync then [] else
        [⟨.unsync, s.tb.stationUs, none⟩])).beginReferenceLost.beginHoldoverExpired := by
  rw [State.endOfRange, if_pos due]
  dsimp only
  rw [State.announceFrom_tb, show s.tb.enterRangeHold.discipline.quality = .unsync from rfl]
  simp only [eq_comm (a := Quality.unsync)]
  rfl

end Expiry

/-- Settles O22: each expiry is the change of the Time Base, its announcement and the causes that begin. -/
theorem timeBaseTimersExpire : Obligations.TimeBaseTimersExpire := by
  unfold Obligations.TimeBaseTimersExpire
  intro lost expired
  have gapRuns : ∀ s : State, s.held = false → exec .referenceGapExpiry s = .next s.referenceGap.settle :=
    fun s held => next_settle (State.whenRunning_of s held)
  have limitRuns : ∀ s : State, s.held = false → exec .holdoverLimitExpiry s = .next s.holdoverLimit.settle :=
    fun s held => next_settle (State.whenRunning_of s held)
  have rangeStands : ∀ s : State, s.tb.rangeHold = true ∨ s.tb.stationUs < 65536 * 86400000000 - 1 →
      exec .endOfRangeHold s = .next s.settle :=
    fun s early => next_settle (if_neg (by simp [TimeBase.not_rangeReached early]))
  refine ⟨?_, ?_, ?_, ?_, ?_⟩
  case refine_1 =>
    intro s start held disciplined running reached
    have runs := gapRuns s held
    rw [State.referenceGap_due (TimeBase.gapExpired_iff.mpr ⟨start, disciplined, running, reached⟩),
      State.beginReferenceLost_withTimeBase] at runs
    refine ⟨_, runs, rfl, State.active_withCause .., rfl, fun locked => ?_, fun acquire => ?_⟩
    · simp [State.withTimeBase, locked, Discipline.quality]
    · simp [State.withTimeBase, acquire, Discipline.quality]
  case refine_2 =>
    intro s start held holdover running reached
    have runs := limitRuns s held
    rw [State.holdoverLimit_due (State.holdoverReached_iff.mpr ⟨start, holdover, running, reached⟩),
      State.beginHoldoverExpired_withTimeBase] at runs
    exact ⟨_, runs, rfl, State.active_withCause .., rfl⟩
  case refine_3 =>
    intro s held
    refine ⟨fun early => ?_, fun early => ?_, rangeStands s⟩
    · rw [gapRuns s held, State.referenceGap, if_neg (mt TimeBase.gapExpired_iff.mp early)]
    · rw [limitRuns s held, State.holdoverLimit, if_neg (mt State.holdoverReached_iff.mp early)]
  case refine_4 =>
    intro s held
    refine ⟨next_settle (State.whenRunning_held s held), next_settle (State.whenRunning_held s held), rangeStands s,
      fun free reached => ?_⟩
    have due := State.endOfRange_due (TimeBase.rangeReached_iff.mpr ⟨free, reached⟩)
    rw [if_pos held] at due
    exact next_settle due
  case refine_5 =>
    intro s held free reached
    have due := State.endOfRange_due (TimeBase.rangeReached_iff.mpr ⟨free, reached⟩)
    rw [if_neg (by simp [held]), State.beginReferenceLost_withTimeBase, State.beginHoldoverExpired_withTimeBase] at due
    refine ⟨_, next_settle due, rfl, rfl, ?_, ?_, State.active_withCause .., rfl⟩
    · simp [State.withTimeBase, apply_ite (List.map ScAnnouncement.time)]
    · exact (CondSet.active_of_find (State.find_withCause_ne _ _ _ (by decide))).trans (State.active_withCause ..)

/-! ### SET TIME (R15, R19) -/

section SetTime

variable {s : State} {us : Nat}

/-- The Time Base once SET TIME has stepped it: TIME_STEPPED is raised, and an end-of-range hold ends. -/
def TimeBase.setTo (t : TimeBase) (us : Nat) : TimeBase :=
  { t with
    stationUs := us, residual := 0, lastStep := some ((us : Int) - t.stationUs), timeValid := true, rangeHold := false
    conds := t.conds.raised .timeStepped ⟨us / 1000, t.discipline.quality, .observed⟩ t.elapsed
      (.timeStepped ((us : Int) - t.stationUs) .setTime) }

theorem State.setTime_eq : s.setTime us = s.withTimeBase (s.tb.setTo us)
    [⟨s.tb.discipline.quality, us, some ⟨s.tb.stationUs, us, (us : Int) - s.tb.stationUs⟩⟩] := rfl

theorem TimeBase.find_timeStepped_setTo (t : TimeBase) (us : Nat) :
    ((t.setTo us).conds.find .timeStepped).map (fun c => (c.state, c.detail)) =
      some (.clearUnack, .timeStepped ((us : Int) - t.stationUs) .setTime) := by
  obtain ⟨count, found⟩ := t.conds.find_raised .timeStepped ⟨us / 1000, t.discipline.quality, .observed⟩ t.elapsed
    (.timeStepped ((us : Int) - t.stationUs) .setTime)
  rw [TimeBase.setTo, found]
  rfl

theorem serveSetTime_outOfRange {body : List Byte} (out : 86400000 ≤ field body 2 4) :
    serveSetTime body s = .same s .outOfRange .none := if_pos out

theorem serveSetTime_inUse {body : List Byte} (range : field body 2 4 < 86400000)
    (inUse : s.tb.discipline = .acquire ∨ s.tb.discipline = .locked ∨ s.tb.discipline = .holdover) :
    serveSetTime body s = .same s .referenceInUse .none := by
  refine (if_neg (Nat.not_le.mpr range)).trans (if_neg ?_)
  obtain h | h | h := inUse <;> simp [h]

theorem serveSetTime_steps {body : List Byte} (range : field body 2 4 < 86400000)
    (free : s.tb.discipline = .free ∨ s.tb.discipline = .drift) : serveSetTime body s =
      ⟨s.setTime (field body 0 2 * 86400000000 + field body 2 4 * 1000), .ok, .none⟩ :=
  (if_neg (Nat.not_le.mpr range)).trans (if_pos free)

end SetTime

/-- Settles O23. -/
theorem setTimeStepsOrIsRefused : Obligations.SetTimeStepsOrIsRefused := by
  unfold Obligations.SetTimeStepsOrIsRefused
  intro f s admits day ms us
  have target : field f.body 0 2 * 86400000000 + field f.body 2 4 * 1000 = us := rfl
  clear_value us
  refine ⟨fun out => State.exec_replies admits rfl (serveSetTime_outOfRange out),
    fun range inUse => State.exec_replies admits rfl (serveSetTime_inUse range inUse), fun range free => ?_⟩
  have serves := serveSetTime_steps (s := s) range free
  have unsync : s.tb.discipline.quality = .unsync := by obtain h | h := free <;> rw [h] <;> rfl
  rw [target, State.setTime_eq, unsync] at serves
  exact ⟨_, State.exec_served admits rfl serves, rfl, s.tb.find_timeStepped_setTo us⟩

/-! ### The reference message (R4, R5, R188) -/

section Message

variable {t : TimeBase} {b : Byte} {rx : RefRx}

theorem TimeBase.refTimedOut_iff (receiving : t.refRx = some rx) : t.refTimedOut = true ↔ rx.mark + 20 < t.elapsed := by
  rw [TimeBase.refTimedOut, receiving]
  exact decide_eq_true_iff

theorem TimeBase.refCharacter_waiting (waiting : t.refRx = none) :
    t.refCharacter b = if b = 0x24 then { t with refRx := some ⟨[], t.elapsed⟩ } else t := by
  rw [TimeBase.refCharacter, if_neg (by simp [TimeBase.refTimedOut, waiting]), TimeBase.refByte, waiting]

/-- A character in time is the next byte of the message. -/
theorem TimeBase.refCharacter_receiving (receiving : t.refRx = some rx) (inTime : t.elapsed ≤ rx.mark + 20) :
    t.refCharacter b = if rx.bytes.length < 6 then { t with refRx := some ⟨rx.bytes ++ [b], t.elapsed⟩ }
      else match refMessage (rx.bytes ++ [b]) with
        | some m => t.abandonMessage.pair m
        | none => t.abandonMessage := by
  rw [TimeBase.refCharacter, if_neg (mt (TimeBase.refTimedOut_iff receiving).mp (by omega)), TimeBase.refByte, receiving]
  simp only [List.length_append, List.length_singleton, Nat.add_lt_iff_lt_sub_right] <;> rfl

/-- A completed message is held where it lies in the pairing window, or no edge is recorded (R5). -/
theorem TimeBase.pair_eq (m : RefMsg) : t.pair m =
    if ∀ edge, t.precedingEdge = some edge → edge + 50 ≤ t.elapsed ∧ t.elapsed ≤ edge + 950
      then { t with heldMsg := some m } else t := by
  unfold TimeBase.pair
  split <;> simp_all

/-- The seven bytes of a message: day, second, flags and check (Table 11-10). -/
theorem refMessage_seven (b0 b1 b2 b3 b4 b5 b6 : Byte) : refMessage [b0, b1, b2, b3, b4, b5, b6] =
    if b6 = b0 ^^^ b1 ^^^ b2 ^^^ b3 ^^^ b4 ^^^ b5 ∧ (b2.toNat * 256 + b3.toNat) * 256 + b4.toNat ≤ 86399
      then some ⟨b0.toNat * 256 + b1.toNat, (b2.toNat * 256 + b3.toNat) * 256 + b4.toNat, b5.getLsbD 0⟩ else none := by
  have second : field [b0, b1, b2, b3, b4, b5, b6] 2 3 = (b2.toNat * 256 + b3.toNat) * 256 + b4.toNat := by
    simp [field, beNat]
  have day : field [b0, b1, b2, b3, b4, b5, b6] 0 2 = b0.toNat * 256 + b1.toNat := by simp [field, beNat]
  have check : xorBytes ([b0, b1, b2, b3, b4, b5, b6].take 6) = b0 ^^^ b1 ^^^ b2 ^^^ b3 ^^^ b4 ^^^ b5 := by
    simp [xorBytes]
  rw [refMessage, second, day, check]
  simp only [byteAt, List.getD_cons_succ, List.getD_cons_zero, eq_comm (a := b6)]

/-- The check byte ends the message: it is paired, or nothing is held (R4, R5). -/
theorem TimeBase.refCharacter_check {b0 b1 b2 b3 b4 b5 b6 : Byte} {mark : Nat}
    (receiving : t.refRx = some ⟨[b0, b1, b2, b3, b4, b5], mark⟩) (inTime : t.elapsed ≤ mark + 20) :
    t.refCharacter b6 = if b6 = b0 ^^^ b1 ^^^ b2 ^^^ b3 ^^^ b4 ^^^ b5 ∧
        (b2.toNat * 256 + b3.toNat) * 256 + b4.toNat ≤ 86399
      then t.abandonMessage.pair ⟨b0.toNat * 256 + b1.toNat, (b2.toNat * 256 + b3.toNat) * 256 + b4.toNat, b5.getLsbD 0⟩
      else t.abandonMessage := by
  rw [TimeBase.refCharacter_receiving receiving inTime]
  simp only [List.length_cons, List.length_nil, Nat.lt_irrefl, if_false, List.cons_append, List.nil_append,
    refMessage_seven]
  split_ifs <;> rfl

end Message

section Characters

variable {s : State}

/-- An event of the reference message while RESTART_N is not held (R24). -/
theorem State.onTimeBase_of {f : TimeBase → TimeBase} {tb : TimeBase} (held : s.held = false) (changes : f s.tb = tb) :
    (s.onTimeBase f).answer = .next ({ s with tb := tb } : State).settle :=
  next_settle ((State.whenRunning_of s held).trans (by rw [changes]))

end Characters

/-- Settles O24. -/
theorem referenceMessageIsBuiltAndPaired : Obligations.ReferenceMessageIsBuiltAndPaired := by
  unfold Obligations.ReferenceMessageIsBuiltAndPaired
  constructor
  · intro s b held
    refine ⟨fun waiting start => State.onTimeBase_of held ?_, fun waiting other => State.onTimeBase_of held ?_,
      fun rx receiving short inTime => State.onTimeBase_of held ?_, fun rx receiving late => State.onTimeBase_of held ?_,
      State.onTimeBase_of held rfl⟩
    · rw [TimeBase.refCharacter_waiting waiting, if_pos start]
    · rw [TimeBase.refCharacter_waiting waiting, if_neg other]
    · rw [TimeBase.refCharacter_receiving receiving inTime, if_pos short]
    · exact if_pos ((TimeBase.refTimedOut_iff receiving).mpr late)
  · intro s b0 b1 b2 b3 b4 b5 b6 mark held receiving inTime m kept
    have ends := TimeBase.refCharacter_check (b6 := b6) receiving inTime
    rw [TimeBase.pair_eq] at ends
    refine ⟨fun holds => State.onTimeBase_of held ?_, fun fails => State.onTimeBase_of held ?_⟩
    · obtain ⟨checked, inWindow⟩ := holds
      exact ends.trans ((if_pos checked).trans (if_pos inWindow))
    · rw [ends]
      split
      · next checked => exact if_neg fun inWindow => fails ⟨checked, inWindow⟩
      · rfl

end Sys2Proof.Machine
end

section
/-! PROOFS. The Link Receivers (chapter 2): the checks of a telegram, a valid one, the faults, the characters and the
silence limit: O25 to O29. -/

namespace Sys2Proof.Machine

/-! ### The checks of a telegram (R27) -/

/-- Two check bytes agree with a CRC as the number that they spell. -/
theorem toNat_eq_beNat_iff (c : BitVec 16) (hi lo : Byte) : c.toNat = beNat [hi, lo] ↔ c = (hi ++ lo : BitVec 16) := by
  have spelled : (hi ++ lo : BitVec 16).toNat = beNat [hi, lo] := by
    rw [BitVec.toNat_append, ← Nat.shiftLeft_add_eq_or_of_lt lo.isLt, Nat.shiftLeft_eq]
    simp [beNat]
  rw [← spelled, BitVec.toNat_eq]

/-- The three checks, over the bytes named one by one. -/
theorem checkTelegram_eq (length kind flags objHigh objLow hi lo : Byte) (rest : List Byte) :
    checkTelegram (length :: kind :: flags :: objHigh :: objLow :: rest ++ [hi, lo]) =
      if crc16 (length :: kind :: flags :: objHigh :: objLow :: rest) ≠ (hi ++ lo : BitVec 16) then .error .crc
      else match TelegramKind.ofByte kind with
        | none => .error .unknownKind
        | some k =>
          if contentOk k (rest.take k.contentBytes) = false then .error .unknownKind
          else if length.toNat ≠ 4 + k.contentBytes + (if flags.getLsbD 1 then 2 else 0) then .error .length
          else .ok
            { content := contentOf k (rest.take k.contentBytes)
              kindByte := kind
              refresh := flags.getLsbD 0
              object := objHigh.toNat * 256 + objLow.toNat
              age := if flags.getLsbD 1 then beNat ((rest.drop k.contentBytes).take 2) else 0 } := by
  let covered := length :: kind :: flags :: objHigh :: objLow :: rest
  have last : (covered ++ [hi, lo]).length - 2 = covered.length := by simp
  have object : field (kind :: flags :: objHigh :: objLow :: rest) 2 2 = objHigh.toNat * 256 + objLow.toNat := by
    simp [field, beNat]
  have age : ∀ width, field (kind :: flags :: objHigh :: objLow :: rest) (4 + width) 2 =
      beNat ((rest.drop width).take 2) := fun width => by
    rw [field, Nat.add_comm]
    rfl
  show checkTelegram (covered ++ [hi, lo]) = _
  unfold checkTelegram
  rw [last, List.take_left, List.drop_left]
  dsimp only
  rw [show covered.drop 1 = kind :: flags :: objHigh :: objLow :: rest from rfl, object,
    show byteAt (covered ++ [hi, lo]) 0 = length from rfl]
  simp only [ne_eq, toNat_eq_beNat_iff, age, Bool.not_eq_true', byteAt, List.getD_cons_succ, List.getD_cons_zero,
    List.drop_succ_cons, List.drop_zero] <;> rfl

/-- Settles O25. -/
theorem telegramChecksComeInOrder : Obligations.TelegramChecksComeInOrder := by
  unfold Obligations.TelegramChecksComeInOrder
  intro length kind flags objHigh objLow hi lo rest covered r agrees
  have checks : r = _ := checkTelegram_eq length kind flags objHigh objLow hi lo rest
  refine ⟨fun differs => ?_, fun agree unknown => ?_, fun k agree known => ?_⟩
  · rw [checks, if_pos differs]
  · rw [checks, if_neg (not_not.mpr agree), unknown]
  · rw [if_neg (not_not.mpr agree), known] at checks
    intro content due
    refine ⟨fun bad => ?_, fun good differs => ?_, fun good fits => ?_⟩
    · exact checks.trans (if_pos bad)
    · exact checks.trans ((if_neg (by simp [good, content])).trans (if_pos differs))
    · exact ⟨_, checks.trans ((if_neg (by simp [good, content])).trans (if_neg (not_not.mpr fits))), rfl, rfl, rfl, rfl, rfl⟩

/-! ### Characters (R25, R26) -/

section Characters

variable {s : State} {i : Fin 4} {l : Link} {b : Byte}

/-- An event of an enabled link's input while RESTART_N is not held. -/
theorem State.whenReceiving_of {f : State → State} (held : s.held = false)
    (enabled : s.settings.linkEnable.get i = true) : s.whenReceiving i f = f s := by
  rw [State.whenReceiving, State.whenRunning_of _ held, if_pos enabled]

theorem State.whenReceiving_disabled {f : State → State} (held : s.held = false)
    (disabled : s.settings.linkEnable.get i = false) : s.whenReceiving i f = s := by
  rw [State.whenReceiving, State.whenRunning_of _ held, if_neg (by simp [disabled])]

theorem State.character_hunting (hunting : (s.link i).framing = .hunting) : s.character i b =
    if b = 0x7E then s.setLink i { s.link i with framing := .receiving [] s.elapsed } else s := by
  rw [State.character, hunting]
  rfl

theorem State.character_length {mark : Nat} (receiving : (s.link i).framing = .receiving [] mark) : s.character i b =
    if 4 ≤ b.toNat ∧ b.toNat ≤ 12 then s.setLink i { s.link i with framing := .receiving [b] s.elapsed }
    else (s.setLink i { s.link i with framing := .hunting }).receiverFault i .length none none := by
  rw [State.character, receiving]
  rfl

theorem State.character_counted {length : Byte} {before : List Byte} {mark : Nat}
    (receiving : (s.link i).framing = .receiving (length :: before) mark) (more : before.length + 2 < length.toNat + 3) :
    s.character i b = s.setLink i { s.link i with framing := .receiving (length :: (before ++ [b])) s.elapsed } := by
  rw [State.character, receiving]
  exact if_pos (by simpa using more)

/-- The last check byte ends the telegram: the receiver hunts again. -/
theorem State.character_last {length : Byte} {before : List Byte} {mark : Nat}
    (receiving : (s.link i).framing = .receiving (length :: before) mark) (last : before.length + 2 = length.toNat + 3) :
    s.character i b = s.telegramDone i (length :: (before ++ [b])) := by
  rw [State.character, receiving]
  exact if_neg (by simp; omega)

theorem State.telegramDone_ok {bytes : List Byte} {t : Telegram} (valid : checkTelegram bytes = .ok t) :
    s.telegramDone i bytes = (s.setLink i { s.link i with framing := .hunting }).validTelegram i t := by
  rw [State.telegramDone, valid]
  rfl

theorem State.telegramDone_error {bytes : List Byte} {reason : FaultReason} (invalid : checkTelegram bytes = .error reason) :
    s.telegramDone i bytes = (s.setLink i { s.link i with framing := .hunting }).receiverFault i reason
      (partialKind bytes) (partialObject bytes) := by
  rw [State.telegramDone, invalid]
  rfl

/-! ### Faults (R36, R37, R41) -/

/-- A fault meets the capture of the link. -/
theorem State.linkFault_setLink (r : FaultRecord) : (s.setLink i l).linkFault i r =
    if l.capture.isNone then
      (s.setLink i { l with capture := some r }).raiseMomentary (.link i) .linkError (.linkError r.reason)
    else s.setLink i { l with further := true } := by
  unfold State.linkFault State.onLink
  rw [State.link_setLink_self, State.setLink_setLink]
  cases capture : l.capture with
  | none => simp [Link.capturing, capture]
  | some stored => simp [Link.capturing, capture]

/-! ### A valid telegram (R28 to R30, R32) -/

/-- The link once a valid telegram has been dated: it is the last valid one. -/
theorem State.validTelegram_setLink (t : Telegram) : (s.setLink i l).validTelegram i t =
    let s' := s.setLink i { l with lastValid := some ⟨s.stationMs - s.compensation i t.age, s.quality⟩ }
    match t.content with
    | none => s'.heartbeat i
    | some c => s'.enqueue i l.lastValid t c := by
  unfold State.validTelegram State.onLink
  rw [State.link_setLink_self, State.setLink_setLink] <;> rfl

theorem State.linkUp_setLink : (s.setLink i l).linkUp i =
    (s.setLink i { l with state := .up, silenceStart := some s.elapsed }).endCause (.link i) .linkGap := by
  unfold State.linkUp State.onLink
  rw [State.link_setLink_self, State.setLink_setLink]
  rfl

theorem State.accept_setLink (e : TelegramEntry) : (s.setLink i l).accept i e =
    (s.setLink i { l with
      queue := l.queue ++ [.telegram e], lastAccepted := some ⟨e.ms, e.quality⟩
      state := .up, silenceStart := some s.elapsed }).endCause (.link i) .linkGap := by
  unfold State.accept State.onLink
  rw [State.link_setLink_self, State.setLink_setLink, State.linkUp_setLink]

/-- A link that enters a gap, then changed but for its conditions (R32, R33). -/
theorem State.enterGap_setLink {f : Link → Link} {cause : GapCause} {start : StationQ} (unread : ∀ l cs,
    f { l with conds := cs } = { f l with conds := cs }) :
    ((s.setLink i l).enterGap i cause start).onLink i f =
      (s.setLink i (f { l with state := .gap, silenceStart := none })).beginCause (.link i) .linkGap
        (.linkGap cause start) := by
  have frame : (f { l with state := .gap, silenceStart := none }).conds = l.conds := by
    have same := congrArg Link.conds (unread { l with state := .gap, silenceStart := none } l.conds)
    exact same
  unfold State.enterGap State.onLink
  rw [State.link_setLink_self, State.setLink_setLink, State.beginCause_link, State.beginCause_link,
    State.link_setLink_self, State.setLink_setLink, unread, frame]

/-- A marker placed at the tail, or waiting, does not depend on the conditions of the link (R33, R35). -/
theorem Link.placeMarker_conds (m : GapMarker) (l : Link) (cs : CondSet) :
    ({ l with conds := cs } : Link).placeMarker m = { l.placeMarker m with conds := cs } := by
  unfold Link.placeMarker
  split <;> rfl

end Characters

/-- Settles O26: by what the telegram carries, and by the queue and the marker that it meets. -/
theorem validTelegramIsDatedAndQueued : Obligations.ValidTelegramIsDatedAndQueued := by
  unfold Obligations.ValidTelegramIsDatedAndQueued
  intro s i length before mark b t held enabled receiving last valid taken quality dated l received up dropped
  have runs : exec (.telegramReceived i b) s = .next ((s.setLink i { l with framing := .hunting }).validTelegram i t).settle := by
    refine next_settle ((State.whenReceiving_of held enabled).trans ?_)
    rw [State.character_last receiving last, State.telegramDone_ok valid]
  rw [State.validTelegram_setLink] at runs
  refine ⟨fun empty pending => ?_, fun empty free => ?_, fun c carries pending => ?_, fun c carries free room => ?_,
    fun c start carries free full known => ?_⟩
  · rw [empty] at runs
    refine runs.trans (next_settle (if_pos ?_))
    rw [State.link_setLink_self]
    exact pending
  · rw [empty] at runs
    refine runs.trans (next_settle ((if_neg ?_).trans State.linkUp_setLink))
    rw [State.link_setLink_self]
    simp [l, free]
  · rw [carries] at runs
    refine runs.trans (next_settle (if_pos ?_))
    rw [State.link_setLink_self]
    exact pending
  · rw [carries] at runs
    refine runs.trans (next_settle ((if_neg ?_).trans ((if_pos ?_).trans (State.accept_setLink _))))
    · rw [State.link_setLink_self]
      simp [l, free]
    · rw [State.link_setLink_self]
      exact room
  · rw [carries] at runs
    refine runs.trans (next_settle ((if_neg ?_).trans ((if_neg ?_).trans ?_)))
    · rw [State.link_setLink_self]
      simp [l, free]
    · rw [State.link_setLink_self]
      exact Nat.not_lt.mpr full
    · unfold State.overflow
      rw [State.link_setLink_self, known]
      dsimp only
      rw [State.enterGap_setLink fun _ _ => rfl, State.receiverFault, State.beginCause_nowQ]
      rfl

/-- Settles O27. -/
theorem receiverFaultsAreCaptured : Obligations.ReceiverFaultsAreCaptured := by
  unfold Obligations.ReceiverFaultsAreCaptured
  intro s i held enabled l faulted objectIn
  have faults : ∀ reason kind object,
      ((s.setLink i { l with framing := .hunting }).receiverFault i reason kind object).settle =
        faulted reason kind object := fun reason kind object => by
    rw [State.receiverFault, State.linkFault_setLink]
    exact apply_ite State.settle _ _ _
  have runs : ∀ f : State → State, ∀ reason kind object,
      f s = (s.setLink i { l with framing := .hunting }).receiverFault i reason kind object →
      (s.whenReceiving i f).answer = .next (faulted reason kind object) := fun f reason kind object effect => by
    rw [← faults, ← effect, State.whenReceiving_of held enabled]
    rfl
  refine ⟨fun mark b receiving out => ?_, fun bytes mark receiving => ?_, fun hunting => ?_,
    fun bytes mark receiving late => ?_, fun length before mark b reason receiving last invalid => ?_⟩
  · refine runs (fun s => s.character i b) _ _ _ ?_
    rw [State.character_length receiving, if_neg (by omega)]
  · refine runs (fun s => s.badCharacter i) _ _ _ ?_
    rw [State.badCharacter, receiving]
    rfl
  · refine next_settle ((State.whenReceiving_of held enabled).trans ?_)
    rw [State.badCharacter, hunting]
  · refine runs (fun s => s.interByteTimeout i) _ _ _ ?_
    have due : s.interByteDue i = true := by
      rw [State.interByteDue, receiving]
      exact decide_eq_true late
    rw [State.interByteTimeout, receiving]
    exact if_pos due
  · refine runs (fun s => s.character i b) _ _ _ ?_
    rw [State.character_last receiving last, State.telegramDone_error invalid]
    rfl

/-- Settles O28. -/
theorem charactersBuildATelegram : Obligations.CharactersBuildATelegram := by
  unfold Obligations.CharactersBuildATelegram
  intro s i b held l framed
  refine ⟨fun disabled => next_settle (State.whenReceiving_disabled held disabled), fun enabled => ?_⟩
  refine ⟨fun hunting start => ?_, fun hunting other => ?_, fun mark receiving low high => ?_,
    fun length before mark receiving more => ?_⟩
  · exact next_settle ((State.whenReceiving_of held enabled).trans ((State.character_hunting hunting).trans (if_pos start)))
  · exact next_settle ((State.whenReceiving_of held enabled).trans ((State.character_hunting hunting).trans (if_neg other)))
  · exact next_settle ((State.whenReceiving_of held enabled).trans
      ((State.character_length receiving).trans (if_pos ⟨low, high⟩)))
  · exact next_settle ((State.whenReceiving_of held enabled).trans (State.character_counted receiving more))

/-- Settles O29. -/
theorem silenceOpensAGap : Obligations.SilenceOpensAGap := by
  unfold Obligations.SilenceOpensAGap
  intro s i start last held up running known l gap due
  have reached : s.silenceDue i = decide due := by rw [State.silenceDue, up, running]; rfl
  have runs : exec (.silenceExpiry i) s = .next (s.silence i).settle := next_settle (State.whenRunning_of s held)
  have dated : gapStartOf (s.link i).lastValid s.freeCount = last := by rw [known]; rfl
  rw [State.silence, reached, dated] at runs
  have opens : ((s.enterGap i .silence last).onLink i fun l => l.placeMarker ⟨last, .silence, i⟩) =
      (s.setLink i (gap.placeMarker ⟨last, .silence, i⟩)).beginCause (.link i) .linkGap (.linkGap .silence last) := by
    have placed := State.enterGap_setLink (s := s) (i := i) (l := s.link i) (cause := .silence) (start := last)
      (f := fun l => l.placeMarker ⟨last, .silence, i⟩) (Link.placeMarker_conds _)
    rwa [State.setLink_link] at placed
  refine ⟨fun passed room => ?_, fun passed full => ?_, fun early => ?_⟩
  · refine runs.trans (next_settle ((if_pos (decide_eq_true passed)).trans ?_))
    refine opens.trans ?_
    rw [Link.placeMarker, if_pos (show gap.queue.length < Config.queuePlaces from room)]
  · refine runs.trans (next_settle ((if_pos (decide_eq_true passed)).trans ?_))
    refine opens.trans ?_
    rw [Link.placeMarker, if_neg (show ¬ gap.queue.length < Config.queuePlaces from Nat.not_lt.mpr full)]
  · exact runs.trans (next_settle (if_neg (by simpa using early)))

end Sys2Proof.Machine
end

section
/-! PROOFS. DEFINE, AMEND and RETIRE OBJECT (R45 to R48): O30, O31. -/

namespace Sys2Proof.Machine

theorem objectNumber_iff {n : Nat} : objectNumber n = true ↔ 1 ≤ n ∧ n ≤ 4095 := by simp [objectNumber]

theorem linkNumber_some {n : Nat} {i : Fin 4} : linkNumber n = some i ↔ n = i.val := by
  unfold linkNumber
  constructor
  · intro h
    split at h
    · cases h
      rfl
    · exact absurd h (by simp)
  · rintro rfl
    exact dif_pos i.isLt

theorem ObjectKind.ofCode_some {n : Nat} {k : ObjectKind} : ObjectKind.ofCode n = some k ↔ n = k.code := by
  constructor
  · intro h
    unfold ObjectKind.ofCode at h
    split at h <;> first | (cases h; rfl) | exact absurd h (by simp)
  · rintro rfl
    exact ObjectKind.ofCode_code k

/-! ### The fields of a new kind (R45; Tables 3-2 to 3-4) -/

section NewKind

variable {parameter : Option Nat}

theorem newKind_signal (range : ∀ v, parameter = some v → 500 ≤ v ∧ v ≤ 10000) :
    newKind .signal parameter = some (.signal (.fresh (parameter.getD 3000))) := by
  refine if_pos ?_
  cases parameter with
  | none => simp
  | some v => exact range v rfl

theorem newKind_point (range : ∀ v, parameter = some v → 500 ≤ v ∧ v ≤ 30000) :
    newKind .point parameter = some (.point (.fresh (parameter.getD 6000))) := by
  refine if_pos ?_
  cases parameter with
  | none => simp
  | some v => exact range v rfl

theorem newKind_berth (range : ∀ v, parameter = some v → v ≤ 1) :
    newKind .berth parameter = some (.berth (.fresh (decide (parameter = some 1)))) := by
  cases parameter with
  | none => rfl
  | some v =>
    have le := range v rfl
    interval_cases v <;> rfl

/-- A parameter that a kind takes lies within its range. -/
theorem range_of_newKind {kind : ObjectKind} {v : Nat} (h : (newKind kind (some v)).isSome = true) :
    (kind = .signal ∧ 500 ≤ v ∧ v ≤ 10000) ∨ (kind = .point ∧ 500 ≤ v ∧ v ≤ 30000) ∨ (kind = .berth ∧ v ≤ 1) := by
  cases kind with
  | signal =>
    by_contra out
    rw [newKind, if_neg (by simpa using out)] at h
    exact absurd h (by simp)
  | point =>
    by_contra out
    rw [newKind, if_neg (by simpa using out)] at h
    exact absurd h (by simp)
  | berth =>
    refine .inr (.inr ⟨rfl, ?_⟩)
    by_contra out
    match v, out, h with
    | v + 2, _, h => exact absurd h (by simp [newKind])

end NewKind

/-! ### DEFINE OBJECT (R45) -/

section Define

variable {body : List Byte} {s : State}

theorem defineParameter_eq : defineParameter body =
    if (byteAt body 4).toNat = 1 then some (field body 5 2) else none := rfl

theorem defineFields_some {k : KindRec} {i : Fin 4} : defineFields body = some (k, i) ↔
    (1 ≤ field body 0 2 ∧ field body 0 2 ≤ 4095) ∧ (byteAt body 3).toNat = i.val ∧
      ∃ kind : ObjectKind, (byteAt body 2).toNat = kind.code ∧ newKind kind (defineParameter body) = some k := by
  unfold defineFields
  constructor
  · intro h
    split at h
    · next numbered =>
      split at h
      · next kind link coded linked =>
        obtain ⟨k', made, same⟩ := Option.map_eq_some_iff.mp h
        cases same
        exact ⟨objectNumber_iff.mp numbered, linkNumber_some.mp linked, kind, ObjectKind.ofCode_some.mp coded, made⟩
      · exact absurd h (by simp)
    · exact absurd h (by simp)
  · rintro ⟨numbered, linked, kind, coded, made⟩
    rw [if_pos (objectNumber_iff.mpr numbered), ObjectKind.ofCode_some.mpr coded, linkNumber_some.mpr linked]
    dsimp only
    rw [made]
    rfl

theorem editDefineObject_refuses (out : defineFields body = none) :
    editDefineObject body s = .refuse .outOfRange (field body 0 2) none := by
  rw [editDefineObject, out]

theorem editDefineObject_fields {k : KindRec} {i : Fin 4} (fields : defineFields body = some (k, i)) :
    editDefineObject body s = if (s.object (field body 0 2)).isSome then .refuse .numberInUse (field body 0 2) none
      else .accept (s.setObject (field body 0 2) (.new i s.now k)) .ok (.date s.now) := by
  rw [editDefineObject, fields]

end Define

/-- Settles O30: the fields lie within their ranges for one of the three kinds, or the request is refused. -/
theorem defineObjectCreatesARecord : Obligations.DefineObjectCreatesARecord := by
  unfold Obligations.DefineObjectCreatesARecord
  intro f s admits n kind link given parameter within now inRange created
  have parameterEq : defineParameter f.body = if given then some parameter else none := rfl
  have inside : ∀ lo hi, within lo hi → ∀ v, defineParameter f.body = some v → lo ≤ v ∧ v ≤ hi := by
    intro lo hi range v present
    rw [parameterEq] at present
    split at present
    · next isGiven =>
      cases present
      exact range isGiven
    · exact absurd present (by simp)
  have signals : within 500 10000 →
      newKind .signal (defineParameter f.body) = some (.signal (.fresh (if given then parameter else 3000))) := fun range => by
    rw [newKind_signal (inside _ _ range), parameterEq, apply_ite (Option.getD · 3000)]
    rfl
  have points : within 500 30000 →
      newKind .point (defineParameter f.body) = some (.point (.fresh (if given then parameter else 6000))) := fun range => by
    rw [newKind_point (inside _ _ range), parameterEq, apply_ite (Option.getD · 6000)]
    rfl
  have berths : within 0 1 →
      newKind .berth (defineParameter f.body) = some (.berth (.fresh (decide (given ∧ parameter = 1)))) := fun range => by
    rw [newKind_berth fun v present => (inside _ _ range v present).2, parameterEq]
    by_cases isGiven : given <;> simp [isGiven]
  have judged : ∀ v, given → parameter = v → defineParameter f.body = some v := fun v isGiven same => by
    rw [parameterEq, if_pos isGiven, same]
  refine ⟨fun range empty => ?_, fun out => ?_, fun range taken => ?_⟩
  · obtain ⟨low, high, -, kinds⟩ := range
    have creates : ∀ (k : KindRec) (x : ObjectKind), kind = x.code → newKind x (defineParameter f.body) = some k →
        created k := fun k x coded made i linked => by
      refine State.exec_accepted admits rfl ((editDefineObject_fields
        (defineFields_some.mpr ⟨⟨low, high⟩, linked, x, coded, made⟩)).trans (if_neg ?_))
      simp [show s.object (field f.body 0 2) = none from empty]
    refine ⟨fun signal => ?_, fun point => ?_, fun berth => ?_⟩
    · exact creates _ .signal signal (signals (by omega))
    · exact creates _ .point point (points (by omega))
    · exact creates _ .berth berth (berths (by omega))
  · refine State.exec_refused admits rfl (editDefineObject_refuses (Option.eq_none_iff_forall_ne_some.mpr ?_)) rfl
    rintro ⟨k, i⟩ fields
    obtain ⟨⟨low, high⟩, linked, x, coded, made⟩ := defineFields_some.mp fields
    refine out ⟨low, high, by rw [show link = i.val from linked]; exact i.isLt, ?_⟩
    have within_of : ∀ lo hi, (∀ v, defineParameter f.body = some v → lo ≤ v ∧ v ≤ hi) → within lo hi :=
      fun lo hi bound isGiven => bound parameter (judged _ isGiven rfl)
    have ranges : ∀ v, defineParameter f.body = some v → _ := fun v present =>
      range_of_newKind (kind := x) (v := v) (by rw [← present, made]; rfl)
    cases x with
    | signal => exact .inl ⟨coded, within_of _ _ fun v present => by simpa using ranges v present⟩
    | point => exact .inr (.inl ⟨coded, within_of _ _ fun v present => by simpa using ranges v present⟩)
    | berth => exact .inr (.inr ⟨coded, within_of _ _ fun v present => by simpa using ranges v present⟩)
  · obtain ⟨low, high, linked, kinds⟩ := range
    have fields : ∃ k, defineFields f.body = some (k, ⟨link, linked⟩) := by
      obtain ⟨coded, range⟩ | ⟨coded, range⟩ | ⟨coded, range⟩ := kinds
      · exact ⟨_, defineFields_some.mpr ⟨⟨low, high⟩, rfl, .signal, coded, signals range⟩⟩
      · exact ⟨_, defineFields_some.mpr ⟨⟨low, high⟩, rfl, .point, coded, points range⟩⟩
      · exact ⟨_, defineFields_some.mpr ⟨⟨low, high⟩, rfl, .berth, coded, berths range⟩⟩
    obtain ⟨k, fields⟩ := fields
    exact State.exec_refused admits rfl ((editDefineObject_fields fields).trans (if_pos taken)) rfl

end Sys2Proof.Machine
end

section
/-! PROOFS. AMEND OBJECT and RETIRE OBJECT (R46 to R48): O31. -/

namespace Sys2Proof.Machine

/-! ### The expiries of limit timers at records of the other kind (R62) -/

section Expiry

variable {s : State} {n : Nat} {r : ObjectRec}

theorem State.clearExpiry_of_point {p : PointRec} (stored : s.object n = some r) (kind : r.kind = .point p) :
    s.clearExpiry n = s := by
  rw [State.clearExpiry, stored, Option.map_some, kind]

theorem State.throwExpiry_of_signal {g : SignalRec} (stored : s.object n = some r) (kind : r.kind = .signal g) :
    s.throwExpiry n = s := by
  rw [State.throwExpiry, stored, Option.map_some, kind]

/-- After the expiry of a movement the record is a point still. -/
theorem State.point_throwExpiry {p : PointRec} (stored : s.object n = some r) (kind : r.kind = .point p) :
    ∃ r' p', (s.throwExpiry n).object n = some r' ∧ r'.kind = .point p' := by
  unfold State.throwExpiry
  rw [stored, Option.map_some, kind]
  dsimp only
  split
  · split
    · rw [State.setKind, State.onObject_of stored]
      exact ⟨_, _, State.object_beginCause (State.object_setObject_self ..) _ _, rfl⟩
    · exact ⟨r, p, stored, kind⟩
  · exact ⟨r, p, stored, kind⟩

end Expiry

/-! ### What an amendment makes (R46, R47) -/

section Amend

variable {s : State} {n : Nat} {r : ObjectRec} {a : Amendment} {link : Fin 4}

theorem Amendment.changesKind_iff : a.changesKind r = true ↔ a.kindAfter r ≠ r.kind.kindOf := decide_eq_true_iff

/-- An amendment that keeps the kind, without a limit. -/
theorem State.amendObject_plain (same : a.kindAfter r = r.kind.kindOf) (linked : a.link.getD r.link = link)
    (unlimited : a.limit = none) :
    s.amendObject n r a = s.setObject n { r with link := link, kind := a.adjusted r.kind } := by
  rw [State.amendObject, if_neg (by simp [Amendment.changesKind_iff, same]), linked, unlimited]
  rfl

/-- An amendment that keeps the kind and gives no parameter another value. -/
theorem State.amendObject_same {k : KindRec} (same : a.kindAfter r = r.kind.kindOf) (linked : a.link.getD r.link = link)
    (unlimited : a.limit = none) (adjusted : a.adjusted r.kind = k) :
    s.amendObject n r a = s.setObject n { r with link := link, kind := k } := by
  rw [State.amendObject_plain same linked unlimited, adjusted]

/-- An amendment of a limit that keeps the kind: a limit already reached expires at once. -/
theorem State.amendObject_limit {limit : Nat} (same : a.kindAfter r = r.kind.kindOf) (linked : a.link.getD r.link = link)
    (limited : a.limit = some limit) : s.amendObject n r a =
      ((s.setObject n { r with link := link, kind := a.adjusted r.kind }).throwExpiry n).clearExpiry n := by
  rw [State.amendObject, if_neg (by simp [Amendment.changesKind_iff, same]), linked, limited]
  rfl

/-- An amendment to another kind begins a new life (R47). -/
theorem State.amendObject_reborn (other : a.kindAfter r ≠ r.kind.kindOf) (linked : a.link.getD r.link = link) :
    s.amendObject n r a =
      ((s.setObject n (r.reborn link s.now (a.freshKind (a.kindAfter r)))).report (.object n)).dropAnswers n := by
  rw [State.amendObject, if_pos (Amendment.changesKind_iff.mpr other), linked]

/-- Parameters that are the record's own change nothing (R46). -/
theorem Amendment.adjusted_of_same {k : KindRec} (unlimited : a.limit = none)
    (same : ∀ b, k = .berth b → ∀ value, a.timing = some value → value = b.timing) : a.adjusted k = k := by
  cases k with
  | point p => rw [Amendment.adjusted, unlimited]; rfl
  | signal g => rw [Amendment.adjusted, unlimited]; rfl
  | berth b =>
    cases timing : a.timing with
    | none => rw [Amendment.adjusted, timing]; rfl
    | some value => rw [Amendment.adjusted, timing, same b rfl value timing]; rfl

theorem State.setObject_stored (sorted : s.objects.Sorted) (stored : s.object n = some r) : s.setObject n r = s := by
  rw [State.setObject, Store.set_get sorted stored]

theorem State.amendObject_point {p : PointRec} {limit : Nat} (kind : r.kind = .point p)
    (same : a.kindAfter r = .point) (linked : a.link.getD r.link = link) (limited : a.limit = some limit) :
    s.amendObject n r a =
      (s.setObject n { r with link := link, kind := .point { p with throwLimit := limit } }).throwExpiry n := by
  have adjusted : a.adjusted r.kind = .point { p with throwLimit := limit } := by rw [kind, Amendment.adjusted, limited]; rfl
  rw [State.amendObject_limit (by rw [same, kind]; rfl) linked limited, adjusted]
  obtain ⟨r', p', stored, point⟩ := State.point_throwExpiry
    (s := s.setObject n { r with link := link, kind := .point { p with throwLimit := limit } })
    (State.object_setObject_self ..) rfl
  exact State.clearExpiry_of_point stored point

theorem State.amendObject_signal {g : SignalRec} {limit : Nat} (kind : r.kind = .signal g)
    (same : a.kindAfter r = .signal) (linked : a.link.getD r.link = link) (limited : a.limit = some limit) :
    s.amendObject n r a =
      (s.setObject n { r with link := link, kind := .signal { g with clearLimit := limit } }).clearExpiry n := by
  have adjusted : a.adjusted r.kind = .signal { g with clearLimit := limit } := by
    rw [kind, Amendment.adjusted, limited]; rfl
  rw [State.amendObject_limit (by rw [same, kind]; rfl) linked limited, adjusted,
    State.throwExpiry_of_signal (State.object_setObject_self ..) rfl]

end Amend

/-! ### The checks of AMEND OBJECT (R46) -/

section Checks

variable {s : State} {body : List Byte} {a : Amendment} {r : ObjectRec}

theorem editAmendObject_stored (fields : amendFields body = some a) (stored : s.object (field body 0 2) = some r) :
    editAmendObject body s = if a.parametersOk r = false then .refuse .outOfRange (field body 0 2) none
      else if (a.changesKind r || a.changesLink r) && s.referenced (field body 0 2) r then
        .refuse .inUse (field body 0 2) none
      else .accept (s.amendObject (field body 0 2) r a) .ok .none := by
  rw [editAmendObject, fields, stored]
  simp only [Bool.not_eq_true']

/-- A parameter given lies within its kind's range; a parameter not given needs none (R46 check 3). -/
theorem newKind_isSome_iff {given : Prop} [Decidable given] {v : Nat} :
    ((newKind .point (if given then some v else none)).isSome = true ↔ (given → 500 ≤ v ∧ v ≤ 30000)) ∧
      ((newKind .signal (if given then some v else none)).isSome = true ↔ (given → 500 ≤ v ∧ v ≤ 10000)) := by
  by_cases isGiven : given <;> simp [isGiven, newKind]

/-- The parameters that belong to a kind (R46 check 3). -/
theorem Amendment.parametersOk_iff {kind : ObjectKind} {limitGiven timingGiven : Bool} {limit : Nat} {timing : Bool}
    (after : a.kindAfter r = kind) (limited : a.limit = if limitGiven then some limit else none)
    (timed : a.timing = if timingGiven then some timing else none) : a.parametersOk r = true ↔
      match (generalizing := false) kind with
      | .point => ¬ timingGiven ∧ (limitGiven → 500 ≤ limit ∧ limit ≤ 30000)
      | .signal => ¬ timingGiven ∧ (limitGiven → 500 ≤ limit ∧ limit ≤ 10000)
      | .berth => ¬ limitGiven := by
  rw [Amendment.parametersOk, after, limited, timed]
  cases kind with
  | point => simp only [Bool.and_eq_true, newKind_isSome_iff]; cases timingGiven <;> simp
  | signal => simp only [Bool.and_eq_true, newKind_isSome_iff]; cases timingGiven <;> simp
  | berth => cases limitGiven <;> simp

/-- The timing field, not given, is clear (R47). -/
theorem getD_timingGiven {given : Bool} {p : Prop} [Decidable p] :
    (if given then some (decide p) else none).getD false = decide (given = true ∧ p) := by
  cases given <;> simp

theorem Amendment.unlimited_of_berth (ok : a.parametersOk r = true) (after : a.kindAfter r = .berth) : a.limit = none := by
  rw [Amendment.parametersOk, after] at ok
  exact Option.isNone_iff_eq_none.mp ok

theorem Amendment.changes_iff {kind : ObjectKind} {link : Fin 4} (after : a.kindAfter r = kind)
    (linked : a.link.getD r.link = link) :
    (a.changesKind r || a.changesLink r) = true ↔ kind ≠ r.kind.kindOf ∨ link ≠ r.link := by
  rw [Bool.or_eq_true, Amendment.changesKind_iff, after, Amendment.changesLink, linked, decide_eq_true_iff]

theorem editRetireObject_stored (range : 1 ≤ field body 0 2 ∧ field body 0 2 ≤ 4095)
    (stored : s.object (field body 0 2) = some r) :
    editRetireObject body s = if s.referenced (field body 0 2) r then .refuse .inUse (field body 0 2) none
      else .accept (s.retireObject (field body 0 2)) .ok .none := by
  rw [editRetireObject, objectNumber_iff.mpr range, stored]
  rfl

end Checks

theorem ObjectKind.exists_code {n : Nat} (range : 1 ≤ n ∧ n ≤ 3) : ∃ kind : ObjectKind, n = kind.code := by
  obtain rfl | rfl | rfl : n = 1 ∨ n = 2 ∨ n = 3 := by omega
  · exact ⟨.signal, rfl⟩
  · exact ⟨.point, rfl⟩
  · exact ⟨.berth, rfl⟩

/-- Within its ranges a body is an amendment, whatever the record. -/
theorem amendFields_of_inRange {body : List Byte} (r : ObjectRec)
    (range : (1 ≤ field body 0 2 ∧ field body 0 2 ≤ 4095) ∧
      ((byteAt body 2).getLsbD 0 → 1 ≤ (byteAt body 3).toNat ∧ (byteAt body 3).toNat ≤ 3) ∧
      ((byteAt body 2).getLsbD 1 → (byteAt body 4).toNat ≤ 3) ∧
      ((byteAt body 2).getLsbD 3 → (byteAt body 7).toNat ≤ 1)) : ∃ a, amendFields body = some a := by
  obtain ⟨-, kinds, links, -⟩ := id range
  have coded : ∃ kind : ObjectKind,
      kind.code = if (byteAt body 2).getLsbD 0 then (byteAt body 3).toNat else r.kind.kindOf.code := by
    split
    · next isGiven => exact (ObjectKind.exists_code (kinds isGiven)).imp fun _ h => h.symm
    · exact ⟨_, rfl⟩
  have linked : (if (byteAt body 2).getLsbD 1 then (byteAt body 4).toNat else r.link.val) < 4 := by
    split
    · next isGiven => exact Nat.lt_succ_of_le (links isGiven)
    · exact r.link.isLt
  obtain ⟨kind, coded⟩ := coded
  obtain ⟨a, fields, -⟩ := amendFields_spec.2 r kind ⟨_, linked⟩ range coded rfl
  exact ⟨a, fields⟩

/-- An entry whose answer is dropped is owed no more (log 36). -/
theorem BerthEvent.unowed_eq (n : Nat) (ev : BerthEvent) : ev.unowed n =
    if ev.berth = n ∧ ev.direction = .entry true then { ev with direction := .entry false } else ev := by
  obtain ⟨berth, headcode, direction, date⟩ := ev
  cases direction with
  | entry owed => cases owed <;> simp [BerthEvent.unowed]
  | exit => simp [BerthEvent.unowed]

/-- Settles O31: an amendment passes its checks in their order, and is made by the kind it leaves. -/
theorem amendAndRetireObject : Obligations.AmendAndRetireObject := by
  unfold Obligations.AmendAndRetireObject
  intro f s n numbered now names referenced unowed dropped
  have drops : ∀ t : State, t.answers = s.answers → t.berthEvents = s.berthEvents → t.dropAnswers n = dropped t := by
    intro t answers events
    have owed : BerthEvent.unowed n = unowed := funext fun ev => BerthEvent.unowed_eq n ev
    simp only [State.dropAnswers, dropped, answers, events, owed]
  have refs : ∀ r, s.referenced n r = true ↔ referenced r := fun r => State.referenced_iff
  refine ⟨fun admits => ?_, fun admits => ?_⟩
  · intro given newKind newLink limit timing inRange
    obtain ⟨outside, fieldsOf⟩ := amendFields_spec (body := f.body)
    refine ⟨fun out => State.exec_refused admits rfl ?_ rfl, fun range empty => ?_, ?_⟩
    · rw [editAmendObject, outside out]
    · obtain ⟨a, fields⟩ := amendFields_of_inRange (.new 0 s.now (.berth (.fresh false))) range
      refine State.exec_declined admits rfl (status := .noSuch) (subject := n) (index := none) ?_ rfl
      rw [editAmendObject, fields]
      dsimp only
      rw [show s.object (field f.body 0 2) = none from empty]
    · intro r kind link range stored kindly linkly own changes accepted kept reborn
      obtain ⟨a, fields, after, linked, limited, timed⟩ := fieldsOf r kind link range kindly linkly
      have edit := editAmendObject_stored fields stored
      have isOwn : a.parametersOk r = true ↔ own := Amendment.parametersOk_iff after limited timed
      have isChange : (a.changesKind r || a.changesLink r) = true ↔ changes := Amendment.changes_iff after linked
      refine ⟨fun alien => ?_, fun isMine change inUse => ?_, fun isMine free => ?_⟩
      · exact State.exec_refused admits rfl (edit.trans (if_pos (Bool.eq_false_iff.mpr (mt isOwn.mp alien)))) rfl
      · refine State.exec_refused admits rfl (edit.trans ?_) rfl
        rw [if_neg (by simp [isOwn.mpr isMine]), if_pos]
        rw [isChange.mpr change, (refs r).mpr inUse]
        rfl
      · have makes : ∀ t, s.amendObject n r a = t → accepted t := fun t made => by
          refine State.exec_accepted admits rfl (edit.trans ?_)
          rw [if_neg (by simp [isOwn.mpr isMine]), if_neg, made]
          rw [Bool.and_eq_true, isChange, refs]
          exact free
        have renews : ∀ k, kind ≠ r.kind.kindOf → a.freshKind kind = k → reborn k := fun k other fresh =>
          makes _ (by
            rw [State.amendObject_reborn (by rwa [after]) linked, after, fresh]
            exact drops _ rfl rfl)
        refine ⟨fun p point isPoint => ⟨fun isGiven => ?_, fun absent => ?_⟩,
          fun g signal isSignal => ⟨fun isGiven => ?_, fun absent => ?_⟩,
          fun b berth isBerth => ⟨fun isGiven => ?_, fun absent => ?_⟩, fun other isPoint => ?_, fun other isSignal => ?_,
          fun other isBerth => ?_, fun sorted still unlimited sameTiming => ?_⟩
        · exact makes _ (State.amendObject_point point (after.trans isPoint) linked (limited.trans (if_pos isGiven)))
        · exact makes _ (State.amendObject_same (by rw [after, isPoint, point]; rfl) linked
            (limited.trans (if_neg absent)) (by rw [point, Amendment.adjusted, limited, if_neg absent]; rfl))
        · exact makes _ (State.amendObject_signal signal (after.trans isSignal) linked (limited.trans (if_pos isGiven)))
        · exact makes _ (State.amendObject_same (by rw [after, isSignal, signal]; rfl) linked
            (limited.trans (if_neg absent)) (by rw [signal, Amendment.adjusted, limited, if_neg absent]; rfl))
        · have unlimited : a.limit = none := Amendment.unlimited_of_berth (isOwn.mpr isMine) (after.trans isBerth)
          exact makes _ (State.amendObject_same (by rw [after, isBerth, berth]; rfl) linked unlimited
            (by rw [berth, Amendment.adjusted, timed, if_pos isGiven]; rfl))
        · have unlimited : a.limit = none := Amendment.unlimited_of_berth (isOwn.mpr isMine) (after.trans isBerth)
          exact makes _ (State.amendObject_same (by rw [after, isBerth, berth]; rfl) linked unlimited
            (by rw [berth, Amendment.adjusted, timed, if_neg absent]; rfl))
        · exact renews _ (by rw [isPoint]; exact other.symm) (by
            rw [isPoint, Amendment.freshKind, limited, apply_ite (Option.getD · 6000)]; rfl)
        · exact renews _ (by rw [isSignal]; exact other.symm) (by
            rw [isSignal, Amendment.freshKind, limited, apply_ite (Option.getD · 3000)]; rfl)
        · exact renews _ (by rw [isBerth]; exact other.symm) (by
            rw [isBerth, Amendment.freshKind, timed]; exact congrArg (KindRec.berth ∘ BerthRec.fresh) getD_timingGiven)
        · obtain ⟨sameKind, sameLink⟩ := not_or.mp still
          have adjusted : a.adjusted r.kind = r.kind := Amendment.adjusted_of_same (limited.trans (if_neg unlimited)) (by
            intro b berth value present
            rw [timed] at present
            split at present
            · next isGiven =>
              cases present
              exact Bool.eq_iff_iff.mpr (decide_eq_true_iff.trans (sameTiming b berth isGiven))
            · exact absurd present (by simp))
          refine makes s ((State.amendObject_same (after.trans (not_not.mp sameKind)) linked
            (limited.trans (if_neg unlimited)) adjusted).trans ?_)
          rw [not_not.mp sameLink]
          exact State.setObject_stored sorted stored
  · refine ⟨fun out => State.exec_refused admits rfl ?_ rfl, fun range empty => ?_, fun r range stored => ⟨fun inUse => ?_,
      fun free => ?_⟩⟩
    · rw [editRetireObject, if_pos (by rw [Bool.not_eq_true', Bool.eq_false_iff]; exact mt objectNumber_iff.mp out)]
    · refine State.exec_declined admits rfl (status := .noSuch) (subject := n) (index := none) ?_ rfl
      rw [editRetireObject, objectNumber_iff.mpr range, show s.object (field f.body 0 2) = none from empty]
      rfl
    · exact State.exec_refused admits rfl ((editRetireObject_stored range stored).trans (if_pos ((refs r).mpr inUse))) rfl
    · have retired : s.retireObject n = dropped { s with
          objects := s.objects.erase n
          watch := s.watch.map (WatchSlot.emptied (.object n)) } := drops (State.unwatch _ _) rfl rfl
      refine State.exec_accepted admits rfl ((editRetireObject_stored range stored).trans ?_)
      rw [if_neg (mt (refs r).mp free)]
      exact congrArg (Edit.accept · .ok .none) retired

end Sys2Proof.Machine
end

section
/-! PROOFS. The lookups of the stores (R50, R51, R103 to R105, R164): O32. -/

namespace Sys2Proof.Machine

/-! ### Lists -/

/-- A filter that drops nothing keeps every place. -/
theorem getElem?_filterMap_of_isSome {α β : Type} {f : α → Option β} {l : List α} (all : ∀ x ∈ l, (f x).isSome = true)
    (k : Nat) : (l.filterMap f)[k]? = l[k]?.bind f := by
  induction l generalizing k with
  | nil => simp
  | cons x l ih =>
    obtain ⟨y, made⟩ := Option.isSome_iff_exists.mp (all x (List.mem_cons_self ..))
    rw [List.filterMap_cons_some made]
    cases k with
    | zero => simp [made]
    | succ k => simpa using ih (fun z mem => all z (List.mem_cons_of_mem _ mem)) k

theorem length_filterMap_of_isSome {α β : Type} {f : α → Option β} {l : List α} (all : ∀ x ∈ l, (f x).isSome = true) :
    (l.filterMap f).length = l.length := by
  rw [List.length_filterMap_eq_countP, List.countP_eq_length]
  exact all

theorem nextStart_eq {α : Type} (limit : Nat) (selected : List (Nat × α)) :
    nextStart limit selected = (selected[limit]?.map (·.1)).getD 0 := by
  rw [nextStart]
  cases selected[limit]? <;> rfl

/-! ### What the records show -/

theorem CondState.unack_eq (x : CondState) : x.unack = decide (x ≠ .activeAck) := by
  cases x <;> rfl

theorem CondSet.anyUnack_eq (cs : CondSet) : cs.anyUnack = List.any cs fun c => c.state ≠ .activeAck :=
  congrArg (List.any cs) (funext fun c => c.state.unack_eq)

theorem CondSet.anyUnack_iff (cs : CondSet) : cs.anyUnack = true ↔ ∃ c ∈ cs, c.state ≠ .activeAck := by
  rw [CondSet.anyUnack_eq]
  simp

theorem ObjectRec.summary_eq (r : ObjectRec) (n : Nat) : r.summary n = ⟨n, r.kind.kindOf, r.link, r.kind.stateOfRecord,
    r.since, r.stale, r.conds.length, r.conds.any fun c => c.state ≠ .activeAck⟩ := by
  rw [ObjectRec.summary, CondSet.anyUnack_eq]

theorem PathRec.summary_eq (p : PathRec) (n : Nat) : p.summary n = ⟨n, p.headcode, p.day, p.state, p.points.length,
    p.passed, p.lastDeviation, p.deadline.map (·.stage), p.conds.length, p.conds.any fun c => c.state ≠ .activeAck,
    p.templateInUse⟩ := by
  rw [PathRec.summary, CondSet.anyUnack_eq]

/-! ### The filters (R51, R104) -/

theorem kindPasses_iff {filter : Nat} {r : ObjectRec} :
    kindPasses filter r = true ↔ filter = 0 ∨ r.kind.kindOf.code = filter := by
  rw [kindPasses, Bool.or_eq_true, decide_eq_true_iff, decide_eq_true_iff, @eq_comm _ filter r.kind.kindOf.code]

theorem stalePasses_iff {filter : Nat} {r : ObjectRec} (range : filter ≤ 2) : stalePasses filter r = true ↔
    filter = 0 ∨ (filter = 1 ∧ r.stale ≠ none) ∨ (filter = 2 ∧ r.stale = none) := by
  match filter, range with
  | 0, _ => simp [stalePasses]
  | 1, _ => simp [stalePasses, Option.isSome_iff_ne_none]
  | 2, _ => simp [stalePasses]

theorem conditionPasses_iff {filter : Nat} {r : ObjectRec} :
    conditionPasses filter r = true ↔ filter = 0 ∨ ∃ c ∈ r.conds, c.state ≠ .activeAck := by
  rw [conditionPasses, Bool.or_eq_true, decide_eq_true_iff, CondSet.anyUnack_iff]

theorem statePasses_iff {filter : Nat} {x : PathState} : statePasses filter x = true ↔ filter = 0 ∨ x.code = filter := by
  rw [statePasses, Bool.or_eq_true, decide_eq_true_iff, decide_eq_true_iff, @eq_comm _ filter x.code]

/-- Four zero bytes are no headcode's filter (11.2). -/
theorem Headcode.bytes_none_iff {h : Headcode} : h.bytes = noHeadcode ↔ h = ⟨0, 0, 0, 0⟩ := by
  obtain ⟨c0, c1, c2, c3⟩ := h
  simp [Headcode.bytes, noHeadcode]

theorem headcodePasses_iff {filter h : Headcode} :
    headcodePasses filter h = true ↔ filter = ⟨0, 0, 0, 0⟩ ∨ h = filter := by
  rw [headcodePasses, Bool.or_eq_true, decide_eq_true_iff, decide_eq_true_iff, Headcode.bytes_none_iff, @eq_comm _ filter h]

theorem State.mem_selectedObjects {s : State} {start kind stale condition : Nat} {e : Nat × ObjectRec} (range : stale ≤ 2)
    (stored : e ∈ s.objects) : e ∈ s.selectedObjects start kind stale condition ↔
      start ≤ e.1 ∧ (kind = 0 ∨ e.2.kind.kindOf.code = kind) ∧
        (stale = 0 ∨ (stale = 1 ∧ e.2.stale ≠ none) ∨ (stale = 2 ∧ e.2.stale = none)) ∧
        (condition = 0 ∨ ∃ c ∈ e.2.conds, c.state ≠ .activeAck) := by
  simp only [State.selectedObjects, List.mem_filter, stored, true_and, Bool.and_eq_true, decide_eq_true_iff, kindPasses_iff,
    stalePasses_iff range, conditionPasses_iff, and_assoc]

theorem State.mem_selectedPaths {s : State} {start state : Nat} {headcode : Headcode} {e : Nat × PathRec}
    (stored : e ∈ s.tc.paths) : e ∈ s.selectedPaths start state headcode ↔
      start ≤ e.1 ∧ (state = 0 ∨ e.2.state.code = state) ∧
        (headcode = ⟨0, 0, 0, 0⟩ ∨ e.2.headcode = headcode) := by
  simp only [State.selectedPaths, List.mem_filter, stored, true_and, Bool.and_eq_true, decide_eq_true_iff, statePasses_iff,
    headcodePasses_iff, and_assoc]

/-! ### READ BERTH QUEUE (R105) -/

theorem State.berthQueue_eq_some {s : State} {n : Nat} {queue : List Expectation} : s.berthQueue n = some queue ↔
    ∃ r b, s.object n = some r ∧ r.kind = .berth b ∧ b.queue = queue := by
  unfold State.berthQueue
  cases stored : s.object n with
  | none => simp
  | some r => cases kind : r.kind <;> simp [kind]

theorem State.expectationView_of {s : State} {e : Expectation} {p : PathRec} {t : TimingPoint} (position : Nat)
    (path : s.path e.path = some p) (point : p.points[e.index]? = some t) :
    s.expectationView position e = some ⟨position, e.path, p.headcode, e.index, t.plan.kind, t.plan.planned⟩ := by
  rw [State.expectationView, path]
  simp [PathRec.point, point]

section Queue

variable {s : State} {queue : List Expectation} (start : Nat)
  (named : ∀ e ∈ queue, ∃ p t, s.path e.path = some p ∧ p.points[e.index]? = some t)
include named

/-- Every expectation in view shows its path and point (R114). -/
theorem State.isSome_expectationView (e : Expectation × Nat) (mem : e ∈ (queue.zipIdx.drop start).take 32) :
    (s.expectationView e.2 e.1).isSome = true := by
  have inQueue : e.1 ∈ queue := by
    have := List.mem_of_mem_drop (List.mem_of_mem_take mem)
    exact List.fst_mem_of_mem_zipIdx this
  obtain ⟨p, t, path, point⟩ := named _ inQueue
  rw [State.expectationView_of _ path point]
  rfl

theorem State.length_queueView : (s.queueView queue start).length = min 32 (queue.length - start) := by
  rw [State.queueView, length_filterMap_of_isSome (State.isSome_expectationView start named)]
  simp

theorem State.getElem?_queueView {k : Nat} {v : ExpectationView} (shown : (s.queueView queue start)[k]? = some v) :
    ∃ e p t, queue[start + k]? = some e ∧ s.path e.path = some p ∧ p.points[e.index]? = some t ∧
      v = ⟨start + k, e.path, p.headcode, e.index, t.plan.kind, t.plan.planned⟩ := by
  rw [State.queueView, getElem?_filterMap_of_isSome (State.isSome_expectationView start named)] at shown
  obtain ⟨⟨e, i⟩, place, made⟩ := Option.bind_eq_some_iff.mp shown
  have found : queue[start + k]? = some e ∧ start + k = i := by
    rw [List.getElem?_take] at place
    split_ifs at place
    simpa [List.getElem?_zipIdx] using place
  obtain ⟨atPlace, rfl⟩ := found
  obtain ⟨p, t, path, point⟩ := named e (List.mem_of_getElem? atPlace)
  rw [State.expectationView_of _ path point] at made
  exact ⟨e, p, t, atPlace, path, point, (Option.some.inj made).symm⟩

end Queue

/-! ### The answers -/

section Answers

variable {body : List Byte} {s : State}

theorem serveReadObject_out (out : ¬ (1 ≤ field body 0 2 ∧ field body 0 2 ≤ 4095)) :
    serveReadObject body s = .same s .outOfRange .none := by
  rw [serveReadObject, Bool.eq_false_iff.mpr (mt objectNumber_iff.mp out)]
  rfl

theorem serveReadObject_stored (range : 1 ≤ field body 0 2 ∧ field body 0 2 ≤ 4095) :
    serveReadObject body s = ((s.object (field body 0 2)).map fun r =>
      Reply.same s .ok (.object (s.objectView (field body 0 2) r))).getD (.same s .noSuch .none) := by
  rw [serveReadObject, objectNumber_iff.mpr range]
  cases s.object (field body 0 2) <;> rfl

theorem serveFindObjects_eq : serveFindObjects body s =
    if 1 ≤ field body 0 2 ∧ field body 0 2 ≤ 4095 ∧ (byteAt body 2).toNat ≤ 3 ∧ (byteAt body 3).toNat ≤ 2 ∧
      (byteAt body 4).toNat ≤ 1 then
      .same s .ok (.objects
        (((s.selectedObjects (field body 0 2) (byteAt body 2).toNat (byteAt body 3).toNat (byteAt body 4).toNat).take 32).map
          fun e => e.2.summary e.1)
        (nextStart 32 (s.selectedObjects (field body 0 2) (byteAt body 2).toNat (byteAt body 3).toNat
          (byteAt body 4).toNat)))
    else .same s .outOfRange .none := by
  simp only [serveFindObjects, Bool.and_eq_true, objectNumber_iff, decide_eq_true_iff, and_assoc]

theorem serveReadPath_stored (range : ¬ (field body 0 2 = 0 ∨ 63 < (byteAt body 2).toNat)) :
    serveReadPath body s = ((s.path (field body 0 2)).map fun p =>
      if p.points.length ≤ (byteAt body 2).toNat then Reply.same s .outOfRange .none
      else .same s .ok (.path (s.pathView (field body 0 2) p (byteAt body 2).toNat))).getD (.same s .noSuch .none) := by
  rw [serveReadPath, if_neg range]
  cases s.path (field body 0 2) <;> rfl

theorem serveFindPaths_eq : serveFindPaths body s =
    if 1 ≤ field body 0 2 ∧ (byteAt body 2).toNat ≤ 6 ∧
      (Headcode.ofBytes body 3 = ⟨0, 0, 0, 0⟩ ∨ (Headcode.ofBytes body 3).wellFormed = true) then
      .same s .ok (.paths
        (((s.selectedPaths (field body 0 2) (byteAt body 2).toNat (Headcode.ofBytes body 3)).take 16).map
          fun e => e.2.summary e.1)
        (nextStart 16 (s.selectedPaths (field body 0 2) (byteAt body 2).toNat (Headcode.ofBytes body 3))))
    else .same s .outOfRange .none := by
  rw [serveFindPaths, ← ite_not]
  refine if_congr ?_ rfl rfl
  rw [not_or, not_or, not_not, Headcode.bytes_none_iff, not_lt, Nat.one_le_iff_ne_zero]

theorem serveReadBerthQueue_out (out : ¬ ((1 ≤ field body 0 2 ∧ field body 0 2 ≤ 4095) ∧ field body 2 2 ≤ 2047)) :
    serveReadBerthQueue body s = .same s .outOfRange .none := by
  rw [serveReadBerthQueue, if_pos]
  rw [Bool.or_eq_true, Bool.not_eq_true', Bool.eq_false_iff, decide_eq_true_iff, Ne, objectNumber_iff]
  omega

theorem serveReadBerthQueue_stored (range : 1 ≤ field body 0 2 ∧ field body 0 2 ≤ 4095) (start : field body 2 2 ≤ 2047) :
    serveReadBerthQueue body s = ((s.berthQueue (field body 0 2)).map fun queue =>
      Reply.same s .ok (.berthQueue queue.length (s.queueView queue (field body 2 2)))).getD (.same s .noSuch .none) := by
  rw [serveReadBerthQueue, if_neg]
  · cases s.berthQueue (field body 0 2) <;> rfl
  · rw [objectNumber_iff.mpr range, decide_eq_false (by omega)]
    simp

theorem serveReadConditions_none (out : subjectOf (byteAt body 0).toNat (field body 1 2) = none) :
    serveReadConditions body s = .same s .outOfRange .none := by
  rw [serveReadConditions, out]

theorem serveReadConditions_some {x : Subject} (named : subjectOf (byteAt body 0).toNat (field body 1 2) = some x) :
    serveReadConditions body s = if s.subjectExists x then
      .same s .ok (.conditions (List.map (s.conditionView x) (s.condsOf x))) else .same s .noSuch .none := by
  rw [serveReadConditions, named]

end Answers

/-! ### Subjects on the wire (R162) -/

section Subjects

variable {kind number : Nat}

theorem subjectOf_object (range : 1 ≤ number ∧ number ≤ 4095) : subjectOf 3 number = some (.object number) := if_pos range

theorem subjectOf_path (range : 1 ≤ number ∧ number ≤ 65535) : subjectOf 4 number = some (.path number) := if_pos range

theorem subjectOf_link (i : Fin 4) : subjectOf 1 i.val = some (.link i) := dif_pos i.isLt

theorem subjectOf_line (i : Fin 4) : subjectOf 2 i.val = some (.line i) := dif_pos i.isLt

theorem subjectOf_none (out : 4 < kind ∨ (kind = 0 ∧ number ≠ 0) ∨ (1 ≤ kind ∧ kind ≤ 2 ∧ 4 ≤ number) ∨
    (kind = 3 ∧ (number = 0 ∨ 4095 < number)) ∨ (kind = 4 ∧ number = 0)) : subjectOf kind number = none := by
  match kind with
  | 0 => exact if_neg (by omega)
  | 1 => exact dif_neg (by omega)
  | 2 => exact dif_neg (by omega)
  | 3 => exact if_neg (by omega)
  | 4 => exact if_neg (by omega)
  | _ + 5 => rfl

end Subjects

/-- Settles O32: each lookup checks its ranges, then its record, and answers with what its rules list. -/
theorem lookupsAnswerAndChangeNothing : Obligations.LookupsAnswerAndChangeNothing := by
  unfold Obligations.LookupsAnswerAndChangeNothing
  intro f s n slots
  refine ⟨fun admits => ?_, fun admits => ?_, fun admits => ?_, fun admits => ?_, fun admits => ?_, fun admits => ?_⟩
  · refine ⟨fun out => ?_, fun low high empty => ?_, fun r low high stored => ?_⟩
    · exact State.exec_replies admits rfl (serveReadObject_out (by omega))
    · exact State.exec_replies admits rfl ((serveReadObject_stored ⟨low, high⟩).trans (by rw [empty]; rfl))
    · exact State.exec_replies admits rfl ((serveReadObject_stored ⟨low, high⟩).trans (by rw [stored]; rfl))
  · intro kind stale condition inRange
    refine ⟨fun out => State.exec_replies admits rfl (serveFindObjects_eq.trans (if_neg out)), fun range =>
      ⟨s.selectedObjects n kind stale condition, List.filter_sublist, fun e stored =>
        State.mem_selectedObjects range.2.2.2.1 stored, ?_⟩⟩
    refine State.exec_replies admits rfl (serveFindObjects_eq.trans ((if_pos range).trans ?_))
    rw [nextStart_eq]
    simp only [ObjectRec.summary_eq]
    rfl
  · intro first
    refine ⟨fun out => State.exec_replies admits rfl (if_pos out), fun low short empty => ?_, fun p low short stored =>
      ⟨fun past => ?_, fun within => ?_⟩⟩
    · exact State.exec_replies admits rfl ((serveReadPath_stored (by omega)).trans (by rw [empty]; rfl))
    · exact State.exec_replies admits rfl ((serveReadPath_stored (by omega)).trans (by rw [stored]; exact if_pos past))
    · exact State.exec_replies admits rfl ((serveReadPath_stored (by omega)).trans (by
        rw [stored]; exact if_neg (by omega)))
  · intro state headcode inRange
    refine ⟨fun out => State.exec_replies admits rfl (serveFindPaths_eq.trans (if_neg out)), fun range =>
      ⟨s.selectedPaths n state headcode, List.filter_sublist, fun e stored => State.mem_selectedPaths stored, ?_⟩⟩
    refine State.exec_replies admits rfl (serveFindPaths_eq.trans ((if_pos range).trans ?_))
    rw [nextStart_eq]
    simp only [PathRec.summary_eq]
    rfl
  · intro start
    refine ⟨fun out => State.exec_replies admits rfl (serveReadBerthQueue_out (by omega)), fun low high short other => ?_,
      fun r b low high short stored berth named => ⟨s.queueView b.queue start, ?_, State.length_queueView start named,
        fun k v => State.getElem?_queueView start named⟩⟩
    · refine State.exec_replies admits rfl ((serveReadBerthQueue_stored ⟨low, high⟩ short).trans ?_)
      have empty : s.berthQueue n = none := Option.eq_none_iff_forall_ne_some.mpr fun queue held => by
        obtain ⟨r, b, stored, berth, -⟩ := State.berthQueue_eq_some.mp held
        exact other r b stored berth
      rw [empty]
      rfl
    · refine State.exec_replies admits rfl ((serveReadBerthQueue_stored ⟨low, high⟩ short).trans ?_)
      rw [State.berthQueue_eq_some.mpr ⟨r, b, stored, berth, rfl⟩]
      rfl
  · intro kind number given
    have gives : ∀ x, subjectOf kind number = some x → s.subjectExists x = true → given x (s.condsOf x) :=
      fun x named stored => State.exec_replies admits rfl ((serveReadConditions_some named).trans (if_pos stored))
    have misses : ∀ x, subjectOf kind number = some x → s.subjectExists x = false →
        s.repliesOnly .readConditions f .noSuch .none := fun x named missing =>
      State.exec_replies admits rfl ((serveReadConditions_some named).trans (if_neg (by rw [missing]; simp)))
    have wide : number ≤ 65535 := field_two_le _ _
    refine ⟨fun isBase zero => ?_, fun i isLink at_i => ?_, fun i isLine at_i => ?_, fun r isObject low high stored => ?_,
      fun p isPath low stored => ?_, fun isObject low high empty => ?_, fun isPath low empty => ?_, fun out => ?_⟩
    · exact gives .timeBase (by rw [isBase, zero]; rfl) rfl
    · exact gives (.link i) (by rw [isLink, at_i, subjectOf_link]) rfl
    · exact gives (.line i) (by rw [isLine, at_i, subjectOf_line]) rfl
    · rw [← State.condsOf_object s stored]
      exact gives (.object number) (by rw [isObject, subjectOf_object ⟨low, high⟩]) (by rw [State.subjectExists, stored]; rfl)
    · rw [← State.condsOf_path s stored]
      exact gives (.path number) (by rw [isPath, subjectOf_path ⟨low, wide⟩]) (by rw [State.subjectExists, stored]; rfl)
    · exact misses (.object number) (by rw [isObject, subjectOf_object ⟨low, high⟩]) (by rw [State.subjectExists, empty]; rfl)
    · exact misses (.path number) (by rw [isPath, subjectOf_path ⟨low, wide⟩]) (by rw [State.subjectExists, empty]; rfl)
    · exact State.exec_replies admits rfl (serveReadConditions_none (subjectOf_none out))

end Sys2Proof.Machine
end

section
/-! PROOFS. The commands of the Movement Dater that need no account of the records they report: the checks of an entry, a
POINT_CMD, the limit timers and the unmatched answers: O34, O35, O39, O40. -/

namespace Sys2Proof.Machine

/-! ### The checks of an entry (R52) -/

section Checks

variable {s : State} {i : Fin 4} {e : TelegramEntry} {rest : List QueueEntry} {r : ObjectRec}

/-- An entry that fails its checks is discarded, and its fault reported. -/
theorem State.exec_discardsEntry {reason : FaultReason} (held : s.held = false)
    (head : (s.link i).queue = .telegram e :: rest) (fails : s.checkEntry e = some reason) :
    exec (.takeTelegramEntry i) s = .next ((s.withoutHead i rest).linkFault e.link
      ⟨reason, ⟨e.ms, e.quality⟩, some e.content.kindByte, some e.object, e.link⟩).settle := by
  rw [State.exec_takeTelegramEntry held head, State.serveEntry,
    show (s.withoutHead i rest).checkEntry e = s.checkEntry e from rfl, fails]
  rfl

theorem State.checkEntry_fails {reason : FaultReason}
    (fails : s.checkRecord e.object e.content.needs e.link = some reason) : s.checkEntry e = some reason := by
  rw [State.checkEntry, fails]

theorem State.checkRecord_passes {n : Nat} {k : ObjectKind} {j : Fin 4} (range : 1 ≤ n ∧ n ≤ 4095)
    (stored : s.object n = some r) (kind : r.kind.kindOf = k) (link : r.link = j) : s.checkRecord n k j = none := by
  rw [State.checkRecord_some range stored, if_neg (not_not.mpr kind), if_neg (not_not.mpr link)]

theorem State.checkRecord_kind {n : Nat} {k : ObjectKind} {j : Fin 4} (range : 1 ≤ n ∧ n ≤ 4095)
    (stored : s.object n = some r) (other : r.kind.kindOf ≠ k) : s.checkRecord n k j = some .kindMismatch := by
  rw [State.checkRecord_some range stored, if_pos other]

theorem State.checkRecord_link {n : Nat} {k : ObjectKind} {j : Fin 4} (range : 1 ≤ n ∧ n ≤ 4095)
    (stored : s.object n = some r) (kind : r.kind.kindOf = k) (other : r.link ≠ j) :
    s.checkRecord n k j = some .linkMismatch := by
  rw [State.checkRecord_some range stored, if_neg (not_not.mpr kind), if_pos other]

theorem TelegramEntry.source_step {f : Nat} {h : Headcode} (step : e.content = .berthStep f h) (first : e.refresh = false)
    (from_berth : f ≠ 0) : e.source = some f := by
  rw [TelegramEntry.source, step]
  exact if_neg (by simp [first, from_berth])

theorem TelegramEntry.source_none {f : Nat} {h : Headcode} (step : e.content = .berthStep f h)
    (none : e.refresh = true ∨ f = 0) : e.source = .none := by
  rw [TelegramEntry.source, step]
  exact if_pos none

theorem State.checkEntry_source {f : Nat} (passes : s.checkRecord e.object e.content.needs e.link = none)
    (source : e.source = some f) : s.checkEntry e = s.checkRecord f .berth e.link := by
  rw [State.checkEntry, passes, source]

end Checks

/-- Settles O34: the checks of the record, then of the from-berth; the first that fails discards the entry. -/
theorem entryFailingItsChecksIsDiscarded : Obligations.EntryFailingItsChecksIsDiscarded := by
  unfold Obligations.EntryFailingItsChecksIsDiscarded
  intro s i e rest held head discarded numbered
  have discards : ∀ reason, s.checkEntry e = some reason → discarded reason :=
    fun reason fails => State.exec_discardsEntry held head fails
  refine ⟨fun missing => discards _ (State.checkEntry_fails (State.checkRecord_none missing)), fun r range stored =>
    ⟨fun other => ?_, fun kind other => ?_, fun f h kind link step first from_berth => ?_⟩⟩
  · exact discards _ (State.checkEntry_fails (State.checkRecord_kind range stored other))
  · exact discards _ (State.checkEntry_fails (State.checkRecord_link range stored kind other))
  · have checks := State.checkEntry_source (State.checkRecord_passes range stored kind link)
      (TelegramEntry.source_step step first from_berth)
    refine ⟨fun missing => ?_, fun g high origin => ⟨fun other => ?_, fun kind other => ?_⟩⟩
    · exact discards _ (checks.trans (State.checkRecord_none (missing.imp_left (by omega))))
    · exact discards _ (checks.trans (State.checkRecord_kind ⟨by omega, high⟩ origin other))
    · exact discards _ (checks.trans (State.checkRecord_link ⟨by omega, high⟩ origin kind other))

/-! ### POINT_CMD (R63, R64) -/

section PointCmd

variable {s : State} {n : Nat} {r : ObjectRec} {p : PointRec}

theorem State.setKind_of (stored : s.object n = some r) (k : KindRec) :
    s.setKind n k = s.setObject n { r with kind := k } := by
  rw [State.setKind, State.onObject_of stored]

theorem State.applyEntry_pointCmd {e : TelegramEntry} {q : Pos} (stored : s.object e.object = some r)
    (kind : r.kind = .point p) (command : e.content = .pointCmd q) : s.applyEntry e = s.pointCmd e.object r p q e := by
  rw [State.applyEntry, stored]
  dsimp only
  rw [command, kind]

end PointCmd

/-- Settles O35: without a movement a command begins one, unless the point is detected there; in one it reverses it. -/
theorem pointCommandMovesThePoint : Obligations.PointCommandMovesThePoint := by
  unfold Obligations.PointCommandMovesThePoint
  intro s i e rest q r p held head command low high stored link kind popped write moving
  have source : e.source = none := by rw [TelegramEntry.source, command]
  have applied : exec (.takeTelegramEntry i) s = .next (popped.pointCmd e.object r p q e).settle :=
    (State.exec_appliesEntry held head ⟨low, high⟩ stored link (by rw [kind, command]; rfl) source).trans
      (next_settle (State.applyEntry_pointCmd (s := popped) stored kind command))
  have writes : ∀ k, popped.setKind e.object k = popped.setObject e.object { r with kind := k } :=
    State.setKind_of stored
  refine ⟨fun still there => ?_, fun still away => ?_, fun m inMovement toward => ?_, fun m inMovement away => ?_⟩ <;>
    refine applied.trans (next_settle ?_)
  · rw [State.pointCmd, still]
    exact (if_pos there).trans (writes _)
  · rw [State.pointCmd, still]
    refine (if_neg away).trans ?_
    rw [writes]
    rfl
  · rw [State.pointCmd, inMovement]
    exact if_pos toward
  · rw [State.pointCmd, inMovement]
    refine (if_neg away).trans ?_
    rw [writes]
    rfl

/-! ### The limit timers (R62, R69, R75) -/

section Limits

variable {s : State} {n : Nat} {r : ObjectRec}

theorem State.exec_throwLimitExpiry (held : s.held = false) :
    exec (.throwLimitExpiry n) s = .next (s.throwExpiry n).settle := by
  show (s.whenRunning fun s => s.throwExpiry n).answer = _
  rw [State.whenRunning_of _ held]
  rfl

theorem State.exec_clearLimitExpiry (held : s.held = false) :
    exec (.clearLimitExpiry n) s = .next (s.clearExpiry n).settle := by
  show (s.whenRunning fun s => s.clearExpiry n).answer = _
  rw [State.whenRunning_of _ held]
  rfl

theorem PointRec.throwDue_of {p : PointRec} {m : Movement} (inMovement : p.movement = some m) (elapsed : Nat) :
    p.throwDue elapsed = true ↔ m.running = true ∧ m.startMark + p.throwLimit ≤ elapsed := by
  rw [PointRec.throwDue, inMovement]
  simp

theorem SignalRec.clearDue_of {g : SignalRec} {c : Clearing} (inClearing : g.clearing = some c) (elapsed : Nat) :
    g.clearDue elapsed = true ↔ c.running = true ∧ c.requestMark + g.clearLimit ≤ elapsed := by
  rw [SignalRec.clearDue, inClearing]
  simp

theorem State.throwExpiry_of {p : PointRec} {m : Movement} (stored : s.object n = some r) (kind : r.kind = .point p)
    (inMovement : p.movement = some m) : s.throwExpiry n = if p.throwDue s.elapsed then
      (s.setObject n { r with kind := .point { p with movement := some { m with running := false } } }).beginCause
        (.object n) .pointOverdue (.pointOverdue m.toward m.start m.reversed)
      else s := by
  rw [State.throwExpiry, stored, Option.map_some, kind]
  dsimp only
  rw [inMovement]
  dsimp only
  rw [State.setKind_of stored]

theorem State.clearExpiry_of {g : SignalRec} {c : Clearing} (stored : s.object n = some r) (kind : r.kind = .signal g)
    (inClearing : g.clearing = some c) : s.clearExpiry n = if g.clearDue s.elapsed then
      (s.setObject n { r with kind := .signal { g with clearing := some { c with running := false } } }).beginCause
        (.object n) .signalSlowClear (.signalSlowClear c.request)
      else s := by
  rw [State.clearExpiry, stored, Option.map_some, kind]
  dsimp only
  rw [inClearing]
  dsimp only
  rw [State.setKind_of stored]

end Limits

/-- Settles O39: a timer at its expiry point stops and begins its cause; any other expiry changes nothing. -/
theorem limitExpiriesBeginTheirCauses : Obligations.LimitExpiriesBeginTheirCauses := by
  unfold Obligations.LimitExpiriesBeginTheirCauses
  intro s n r held stored
  refine ⟨fun p m kind inMovement => ⟨fun running reached => ?_, fun early => ?_⟩,
    fun g c kind inClearing => ⟨fun running reached => ?_, fun early => ?_⟩⟩
  · rw [State.exec_throwLimitExpiry held, State.throwExpiry_of stored kind inMovement,
      if_pos ((PointRec.throwDue_of inMovement s.elapsed).mpr ⟨running, reached⟩)]
  · rw [State.exec_throwLimitExpiry held, State.throwExpiry_of stored kind inMovement, if_neg]
    rw [PointRec.throwDue_of inMovement]
    rintro ⟨running, reached⟩
    exact early.elim (by simp [running]) (not_lt.mpr reached)
  · rw [State.exec_clearLimitExpiry held, State.clearExpiry_of stored kind inClearing,
      if_pos ((SignalRec.clearDue_of inClearing s.elapsed).mpr ⟨running, reached⟩)]
  · rw [State.exec_clearLimitExpiry held, State.clearExpiry_of stored kind inClearing, if_neg]
    rw [SignalRec.clearDue_of inClearing]
    rintro ⟨running, reached⟩
    exact early.elim (by simp [running]) (not_lt.mpr reached)

/-! ### The unmatched answers (R80) -/

section Answers

variable {s : State} {a : Answer} {rest : List Answer} {r : ObjectRec}

theorem State.exec_unmatchedAnswer (held : s.held = false) (first : s.answers = a :: rest) :
    exec .unmatchedAnswer s = .next (({ s with answers := rest } : State).unmatched a).settle := by
  show (s.whenRunning State.takeAnswer).answer = _
  rw [State.whenRunning_of _ held, State.takeAnswer, first]
  rfl

theorem State.unmatched_berth {b : BerthRec} (stored : s.object a.berth = some r) (kind : r.kind = .berth b) :
    s.unmatched a = if b.occupancy = .occupied a.headcode ∧ r.since.ms = a.date.ms then
        s.beginCause (.object a.berth) .unplannedTrain (.unplannedTrain a.headcode a.date)
      else (s.causeBegins (.object a.berth) .unplannedTrain (.unplannedTrain a.headcode a.date)).endCause (.object a.berth)
        .unplannedTrain := by
  rw [State.unmatched, stored]
  dsimp only
  rw [kind]
  simp only [ObjectRec.stillHolds, Bool.and_eq_true, decide_eq_true_iff]

theorem State.unmatched_none (empty : s.object a.berth = none) : s.unmatched a = s := by
  rw [State.unmatched, empty]

theorem State.unmatched_other (stored : s.object a.berth = some r) (other : r.kind.kindOf ≠ .berth) :
    s.unmatched a = s := by
  rw [State.unmatched, stored]
  dsimp only
  cases kind : r.kind with
  | point p => rfl
  | signal g => rfl
  | berth b => exact absurd (by rw [kind]; rfl) other

end Answers

/-- Settles O40: the first answer given is taken; its cause begins where its headcode still stands from that entry, else
begins and ends at once. -/
theorem unmatchedAnswerReportsTheTrain : Obligations.UnmatchedAnswerReportsTheTrain := by
  unfold Obligations.UnmatchedAnswerReportsTheTrain
  intro s a rest held first taken detail begun
  have takes := State.exec_unmatchedAnswer held first
  refine ⟨fun r b stored kind stands same => takes.trans (next_settle ?_), fun r b stored kind gone =>
    takes.trans (next_settle ?_), fun empty => takes.trans (next_settle ?_), fun r stored other =>
    takes.trans (next_settle ?_)⟩
  · rw [State.unmatched_berth (s := taken) stored kind, if_pos ⟨stands, same⟩, State.beginCause, State.causeActive,
      State.condsOf_object taken stored]
  · exact (State.unmatched_berth (s := taken) stored kind).trans (if_neg gone)
  · exact State.unmatched_none (s := taken) empty
  · exact State.unmatched_other (s := taken) stored other

end Sys2Proof.Machine
end

section
/-! PROOFS. The indications of points and signals: what an operation at one record writes and reports, and the account of
every case of a POINT_IND and of a SIGNAL_CMD or SIGNAL_IND: O36, O37. -/

namespace Sys2Proof.Machine

/-! ### What an operation at one record leaves -/

/-- From one state to another only the record of a number is written, to the record given, and its slots are marked where
it is reported; no berth event is handed. -/
structure State.Writes (s t : State) (n : Nat) (r : ObjectRec) (reports : Bool) : Prop where
  frame : ObjectFrame s t n
  object : t.object n = some r
  events : t.berthEvents = s.berthEvents
  watch : t.watch = slotsAfter s.watch n reports

namespace State.Writes

variable {s t : State} {n : Nat} {r r' : ObjectRec} {a b : Bool}

theorem refl (stored : s.object n = some r) : s.Writes s n r false := ⟨.same s n, stored, rfl, rfl⟩

theorem trans {u : State} (v : s.Writes t n r a) (w : t.Writes u n r' b) : s.Writes u n r' (a || b) where
  frame := v.frame.trans w.frame
  object := w.object
  events := w.events.trans v.events
  watch := by rw [w.watch, v.watch, slotsAfter_slotsAfter]

theorem of_eq (w : s.Writes t n r a) (same : r = r') (reports : a = b) : s.Writes t n r' b := by
  rwa [← same, ← reports]

theorem clearStale (stored : s.object n = some r) :
    s.Writes (s.clearStale n r) n { r with stale := none } r.stale.isSome := by
  obtain ⟨frame, object, events, watch⟩ := State.clearStale_spec stored
  exact ⟨frame, object, events, watch⟩

theorem indicated (stored : s.object n = some r) (changed : Bool) (date : Date) (k : KindRec) :
    s.Writes (s.indicated n changed date k) n { r with since := if changed then date else r.since, kind := k } changed := by
  obtain ⟨frame, object, events, watch⟩ := State.indicated_spec stored changed date k
  exact ⟨frame, object, events, watch⟩

theorem endCause (w : s.Writes t n r a) (c : Class) :
    s.Writes (t.endCause (.object n) c) n { r with conds := r.conds.without c } (a || r.conds.active c) :=
  w.trans ⟨.endCause t n c, State.object_endCause w.object c, by simp, State.watch_endCause w.object c⟩

/-- The clocks that date a cause stand as before the operation. -/
theorem withCause_eq (w : s.Writes t n r a) (cs : CondSet) (c : Class) (d : Detail) :
    t.withCause cs c d = s.withCause cs c d := by
  rw [w.frame.eq]
  rfl

theorem beginCause (w : s.Writes t n r a) (c : Class) (d : Detail) :
    s.Writes (t.beginCause (.object n) c d) n { r with conds := s.withCause r.conds c d } (a || !r.conds.active c) := by
  rw [← w.withCause_eq]
  exact w.trans ⟨.beginCause t n c d, State.object_beginCause w.object c d, by simp, State.watch_beginCause w.object c d⟩

theorem raiseMomentary (w : s.Writes t n r a) (c : Class) (d : Detail) : s.Writes (t.raiseMomentary (.object n) c d) n
    { r with conds := r.conds.raised c s.now s.elapsed d } true := by
  have now : t.now = s.now := by rw [w.frame.eq]; rfl
  have elapsed : t.elapsed = s.elapsed := by rw [w.frame.eq]; rfl
  rw [← now, ← elapsed, ← Bool.or_true a]
  exact w.trans ⟨.raiseMomentary t n c d, State.object_raiseMomentary w.object c d, by simp,
    State.watch_raiseMomentary w.object c d⟩

/-- What a command leaves that took an entry from a queue and wrote one record. -/
theorem taken {i : Fin 4} {rest : List QueueEntry} {c : Instr} {P : Prop} [Decidable P] {u : State}
    (served : exec c s = .next u.settle) (w : (s.withoutHead i rest).Writes u n r a) (reports : a = true ↔ P) :
    ∃ t, exec c s = .next t ∧ t = { s with
      links := (s.withoutHead i rest).links, objects := t.objects, watch := t.watch, attnU := t.attnU, attnR := t.attnR } ∧
      (∀ m, m ≠ n → t.object m = s.object m) ∧ t.object n = some r ∧ ∀ k : Fin 16, t.watch.get k =
        if P ∧ (s.watch.get k).subject = .object n then { s.watch.get k with changed := true } else s.watch.get k := by
  refine ⟨_, served, ?_, fun m other => w.frame.others m other, w.object, fun k => ?_⟩
  · have events : u.settle.berthEvents = s.berthEvents := w.events
    calc u.settle = _ := w.frame.settle
      _ = _ := by rw [events]
  · have watch : u.settle.watch = slotsAfter s.watch n a := w.watch
    rw [watch, get_slotsAfter]
    simp only [reports]

end State.Writes

/-! ### POINT_IND (R65 to R68) -/

theorem Pos.pos_detected (q : Pos) : q.detected.pos = some q := by cases q <;> rfl

theorem Pos.detected_inj {q q' : Pos} : q.detected = q'.detected ↔ q = q' := by
  cases q <;> cases q' <;> simp [Pos.detected]

theorem Pos.detected_ne_none (q : Pos) : q.detected ≠ .none := by cases q <;> simp [Pos.detected]

/-- An indication shows no detection, or a position. -/
theorem Detected.none_or_pos {d : Detected} (known : d ≠ .unknown) : d = .none ∨ ∃ q : Pos, d = q.detected := by
  cases d with
  | unknown => exact absurd rfl known
  | none => exact .inl rfl
  | normal => exact .inr ⟨.normal, rfl⟩
  | reverse => exact .inr ⟨.reverse, rfl⟩

/-- The end of one cause leaves another active or not. -/
theorem CondSet.active_without_ne (cs : CondSet) {c d : Class} (other : c ≠ d) : (cs.without c).active d = cs.active d :=
  CondSet.active_of_find (CondSet.find_without_ne cs other)

theorem CondSet.active_raised_ne (cs : CondSet) {c d : Class} (date : Date) (mark : Nat) (detail : Detail) (other : c ≠ d) :
    (cs.raised c date mark detail).active d = cs.active d :=
  CondSet.active_of_find (CondSet.find_raised_ne cs date mark detail other)

section PointInd

variable {s : State} {n : Nat} {r r₀ : ObjectRec} {p : PointRec} {e : TelegramEntry} {q : Pos}
  (stored : s.object n = some r₀)
include stored

/-- NONE during a movement only shows (R65). -/
theorem State.pointInd_none_moving {m : Movement} (inMovement : p.movement = some m) : s.Writes (s.pointInd n r p .none e) n
    { r₀ with
      since := if decide (p.detected ≠ .none) then r.changeDate e else r₀.since
      kind := .point { p with detected := .none } } (decide (p.detected ≠ .none)) := by
  have eq : s.pointInd n r p .none e = s.indicated n (decide (p.detected ≠ .none)) (r.changeDate e)
      (.point { p with detected := .none }) := by
    rw [State.pointInd, inMovement]
    rfl
  rw [eq]
  exact .indicated stored ..

/-- NONE without a movement is a loss of detection (R67). -/
theorem State.pointInd_none_still (still : p.movement = none) : s.Writes (s.pointInd n r p .none e) n
    { r₀ with
      since := if decide (p.detected ≠ .none) then r.changeDate e else r₀.since
      conds := s.withCause r₀.conds .pointLostDetection (.pointLostDetection p.detected)
      kind := .point { p with detected := .none } }
    (decide (p.detected ≠ .none) || !r₀.conds.active .pointLostDetection) := by
  have eq : s.pointInd n r p .none e = (s.indicated n (decide (p.detected ≠ .none)) (r.changeDate e)
      (.point { p with detected := .none })).beginCause (.object n) .pointLostDetection (.pointLostDetection p.detected) := by
    rw [State.pointInd, still]
    rfl
  rw [eq]
  exact (State.Writes.indicated stored ..).beginCause ..

/-- The position of the movement completes it (R66). -/
theorem State.pointInd_completes {m : Movement} (inMovement : p.movement = some m) (toward : m.toward = q) :
    s.Writes (s.pointInd n r p q.detected e) n
      { r₀ with
        since := if decide (p.detected ≠ q.detected) then r.changeDate e else r₀.since
        conds := (r₀.conds.without .pointOverdue).without .pointLostDetection
        kind := .point { p.completed (durationOf r e (decide (p.detected ≠ q.detected)) m.startMark) with
          detected := q.detected } }
      (decide (p.detected ≠ q.detected) || (r₀.conds.active .pointOverdue || r₀.conds.active .pointLostDetection)) := by
  have eq : s.pointInd n r p q.detected e = ((s.indicated n (decide (p.detected ≠ q.detected)) (r.changeDate e)
      (.point { p.completed (durationOf r e (decide (p.detected ≠ q.detected)) m.startMark) with
        detected := q.detected })).endCause (.object n) .pointOverdue).endCause (.object n) .pointLostDetection := by
    simp only [State.pointInd, Pos.pos_detected, inMovement]
    exact if_pos toward
  rw [eq]
  refine (((State.Writes.indicated stored ..).endCause _).endCause _).of_eq rfl ?_
  rw [CondSet.active_without_ne _ (by decide), Bool.or_assoc]

/-- Another position during a movement is a wrong detection (R66). -/
theorem State.pointInd_wrong {m : Movement} (inMovement : p.movement = some m) (away : m.toward ≠ q) :
    s.Writes (s.pointInd n r p q.detected e) n
      { r₀ with
        since := if decide (p.detected ≠ q.detected) then r.changeDate e else r₀.since
        conds := (r₀.conds.raised .pointWrongDetection s.now s.elapsed (.pointWrongDetection m.toward q.detected)).without
          .pointLostDetection
        kind := .point { p with detected := q.detected } } true := by
  have eq : s.pointInd n r p q.detected e = ((s.indicated n (decide (p.detected ≠ q.detected)) (r.changeDate e)
      (.point { p with detected := q.detected })).raiseMomentary (.object n) .pointWrongDetection
        (.pointWrongDetection m.toward q.detected)).endCause (.object n) .pointLostDetection := by
    simp only [State.pointInd, Pos.pos_detected, inMovement]
    exact if_neg away
  rw [eq]
  exact (((State.Writes.indicated stored ..).raiseMomentary ..).endCause _).of_eq rfl (Bool.true_or _)

/-- The position already detected, without a movement, changes nothing. -/
theorem State.pointInd_same (still : p.movement = none) (same : p.detected = q.detected) :
    s.Writes (s.pointInd n r p q.detected e) n r₀ false := by
  have eq : s.pointInd n r p q.detected e = s := by
    simp only [State.pointInd, Pos.pos_detected, still]
    exact if_neg (by simpa using same)
  rw [eq]
  exact .refl stored

/-- A change of position without a movement ends a loss of detection; it was commanded, or is so reported (R67, R68). -/
theorem State.pointInd_moves (still : p.movement = none) (moves : p.detected ≠ q.detected) :
    s.Writes (s.pointInd n r p q.detected e) n
      { r₀ with
        since := r.changeDate e
        conds := if p.uncommanded q then (r₀.conds.without .pointLostDetection).raised .pointUncommanded s.now s.elapsed
            (.pointUncommanded p.detected q.detected p.commanded)
          else r₀.conds.without .pointLostDetection
        kind := .point { p with detected := q.detected } } true := by
  have changes : s.Writes ((s.changeRecord n (r.changeDate e) (.point { p with detected := q.detected })).endCause
      (.object n) .pointLostDetection) n
      { r₀ with
        since := r.changeDate e
        conds := r₀.conds.without .pointLostDetection
        kind := .point { p with detected := q.detected } } true :=
    ((State.Writes.indicated stored true (r.changeDate e) _).endCause _).of_eq rfl (Bool.true_or _)
  simp only [State.pointInd, Pos.pos_detected, still] at changes ⊢
  rw [if_pos (by simpa using moves)]
  split
  · exact changes.raiseMomentary ..
  · exact changes

end PointInd

theorem PointRec.uncommanded_eq (p : PointRec) (q : Pos) : p.uncommanded q = match p.commanded with
    | some c => decide (c.detected ≠ q.detected ∧ p.detected ≠ .unknown)
    | none => decide (p.detected = .normal ∨ p.detected = .reverse) := by
  unfold PointRec.uncommanded
  cases p.commanded with
  | none => simp
  | some c => simp [Pos.detected_inj]

/-- The duration of a completed movement or clearing (R81): valid unless it was learned after a gap. -/
theorem durationOf_eq (r : ObjectRec) (e : TelegramEntry) (startMark : Nat) {changed unknown : Bool}
    (isUnknown : r.kind.isUnknown = unknown) : durationOf r e changed startMark = encodeDuration (e.mark - startMark)
      (decide (e.refresh = false ∧ unknown = false ∧ (r.stale = none ∨ changed = true))) := by
  rw [durationOf, durationValid, isUnknown]
  congr 1
  cases e.refresh <;> cases unknown <;> cases changed <;> cases r.stale <;> simp

theorem State.applyEntry_pointInd {s : State} {e : TelegramEntry} {r : ObjectRec} {p : PointRec} {d : Detected}
    (stored : s.object e.object = some r) (kind : r.kind = .point p) (indication : e.content = .pointInd d) :
    s.applyEntry e = (s.clearStale e.object r).pointInd e.object r p d e := by
  rw [State.applyEntry, stored]
  dsimp only
  rw [indication, kind]

/-- Settles O36: an indication clears the stale mark, then by the movement in flight and the position shown writes the
record and its conditions. -/
theorem pointIndicationsAreApplied : Obligations.PointIndicationsAreApplied := by
  unfold Obligations.PointIndicationsAreApplied
  intro s i e rest d r p held head indication known low high stored link kind ms last date valid stood uncommanded now lost
    found after
  have source : e.source = none := by rw [TelegramEntry.source, indication]
  have served : exec (.takeTelegramEntry i) s = .next ((((s.withoutHead i rest).clearStale e.object r).pointInd e.object r p
      d e).settle) :=
    (State.exec_appliesEntry held head ⟨low, high⟩ stored link (by rw [kind, indication]; rfl) source).trans
      (next_settle (State.applyEntry_pointInd (s := s.withoutHead i rest) stored kind indication))
  have unknown : r.kind.isUnknown = decide (p.detected = .unknown) := by rw [kind]; rfl
  have dated : r.changeDate e = date := by
    rw [ObjectRec.changeDate_eq r e _ unknown]
    simp only [decide_eq_true_iff]
    rfl
  have duration : ∀ start, durationOf r e (decide (p.detected ≠ d)) start = encodeDuration (e.mark - start) valid :=
    fun start => by
      rw [durationOf_eq r e start unknown]
      simp only [decide_eq_false_iff_not, decide_eq_true_iff]
      rfl
  have since : (if decide (p.detected ≠ d) = true then r.changeDate e else r.since) =
      if p.detected = d then r.since else date := by
    rw [dated]
    by_cases same : p.detected = d <;> simp [same]
  have cleared := State.Writes.clearStale (s := s.withoutHead i rest) stored
  suffices written : ∃ reports, ((s.withoutHead i rest).clearStale e.object r).Writes
      (((s.withoutHead i rest).clearStale e.object r).pointInd e.object r p d e) e.object
      { r with
        stale := none
        since := if p.detected = d then r.since else date
        conds := after.2.1
        kind := .point after.1 } reports ∧ (reports = true ↔ p.detected ≠ d ∨ after.2.2 = true) by
    obtain ⟨reports, writes, iff⟩ := written
    refine State.Writes.taken served (cleared.trans writes) ?_
    rw [Bool.or_eq_true, iff, or_left_comm]
  have raised : ∀ (cs : CondSet) c x, cs.raised c ((s.withoutHead i rest).clearStale e.object r).now
      ((s.withoutHead i rest).clearStale e.object r).elapsed x = cs.raised c now s.tb.elapsed x := fun cs c x => by
    rw [cleared.frame.eq]
    rfl
  obtain rfl | ⟨q, rfl⟩ := Detected.none_or_pos known
  · cases movement : p.movement with
    | some m =>
      have is : after = (stood, r.conds, false) := by
        simp only [after, movement]
        rw [if_neg (Pos.detected_ne_none _).symm, if_pos trivial]
      rw [is]
      exact ⟨_, (State.pointInd_none_moving cleared.object movement).of_eq (by simp only [since]; rfl) rfl, by simp⟩
    | none =>
      have is : after = (stood, s.withCause r.conds .pointLostDetection (.pointLostDetection p.detected), !lost) := by
        simp only [after, movement]
        exact if_pos trivial
      rw [is]
      refine ⟨_, (State.pointInd_none_still cleared.object movement).of_eq ?_ rfl, by simp [lost]⟩
      rw [cleared.withCause_eq]
      simp only [since]
      rfl
  · cases movement : p.movement with
    | some m =>
      by_cases toward : m.toward = q
      · have is : after = ({ stood with
            movement := none
            lastDuration := some (encodeDuration (e.mark - m.startMark) valid)
            count := min 65535 (p.count + 1) },
            (r.conds.without .pointOverdue).without .pointLostDetection, r.conds.active .pointOverdue || lost) := by
          simp only [after, movement]
          rw [if_pos (by rw [toward])]
        rw [is]
        refine ⟨_, (State.pointInd_completes cleared.object movement toward).of_eq ?_ rfl, by simp [lost]⟩
        rw [duration]
        simp only [since]
        rfl
      · have is : after = (stood, (r.conds.raised .pointWrongDetection now s.tb.elapsed
            (.pointWrongDetection m.toward q.detected)).without .pointLostDetection, true) := by
          simp only [after, movement]
          rw [if_neg (by rw [Pos.detected_inj]; exact Ne.symm toward), if_neg (Pos.detected_ne_none q)]
        rw [is]
        refine ⟨_, (State.pointInd_wrong cleared.object movement toward).of_eq ?_ rfl, by simp⟩
        rw [raised]
        simp only [since]
        rfl
    | none =>
      by_cases same : p.detected = q.detected
      · have is : after = (stood, r.conds, false) := by
          simp only [after, movement]
          rw [if_neg (Pos.detected_ne_none _), if_pos same]
        rw [is]
        refine ⟨_, (State.pointInd_same cleared.object movement same).of_eq ?_ rfl, by simp [same]⟩
        rw [if_pos same, show stood = p by simp only [stood, ← same], ← kind]
      · have commands : p.uncommanded q = uncommanded := PointRec.uncommanded_eq p q
        have is : after = (stood, if uncommanded = true then found.raised .pointUncommanded now s.tb.elapsed
            (.pointUncommanded p.detected q.detected p.commanded) else found, if uncommanded = true then true else lost) := by
          simp only [after, movement]
          rw [if_neg (Pos.detected_ne_none _), if_neg same]
          split <;> rfl
        rw [is]
        refine ⟨_, (State.pointInd_moves cleared.object movement same).of_eq ?_ rfl, by simp [same]⟩
        rw [raised, commands, dated, if_neg same]

/-! ### SIGNAL_CMD and SIGNAL_IND (R70 to R74) -/

theorem Aspect.isProceed_iff (a : Aspect) : a.isProceed = true ↔ a = .restrict ∨ a = .caution ∨ a = .proceed := by
  cases a <;> simp [Aspect.isProceed]

theorem Aspect.ne_dark_of_isProceed {a : Aspect} (proceeds : a.isProceed = true) : a ≠ .dark := by
  rintro rfl
  exact absurd proceeds (by decide)

section SignalInd

variable {s : State} {n : Nat} {r r₀ : ObjectRec} {g : SignalRec} {a : Aspect} {e : TelegramEntry}

/-- The conditions once a clearing, where there is one, is completed (R72). -/
def SignalRec.proved (g : SignalRec) (cs : CondSet) : CondSet :=
  if g.clearing.isSome then cs.without .signalSlowClear else cs

theorem SignalRec.active_proved (g : SignalRec) (cs : CondSet) :
    (g.proved cs).active .signalLampFault = cs.active .signalLampFault := by
  unfold SignalRec.proved
  split
  · exact CondSet.active_without_ne _ (by decide)
  · rfl

/-- The record after a proceed aspect: the clearing is completed, with its duration (R72). -/
def SignalRec.proceeded (g : SignalRec) (a : Aspect) (code : Nat → DurationCode) : SignalRec :=
  { g with
    aspect := a
    clearing := none
    lastDuration := match g.clearing with | some c => some (code c.requestMark) | none => g.lastDuration }

/-- A proceed aspect: the clearing is completed, a lamp fault ends, and an aspect that STOP forbids is reported (R72 to
R74). -/
theorem State.Writes.signalProceeds (stored : s.object n = some r₀) : s.Writes (s.signalProceeds n r g a e) n
    { r₀ with
      since := if decide (g.aspect ≠ a) then r.changeDate e else r₀.since
      conds := if g.requested = .stop ∧ g.aspect ≠ a then ((g.proved r₀.conds).without .signalLampFault).raised
          .signalUncommanded s.now s.elapsed (.signalUncommanded g.aspect a)
        else (g.proved r₀.conds).without .signalLampFault
      kind := .signal (g.proceeded a (durationOf r e (decide (g.aspect ≠ a)))) }
    (decide (g.aspect ≠ a) || (g.clearing.isSome && r₀.conds.active .signalSlowClear) ||
      r₀.conds.active .signalLampFault) := by
  have shown : ∃ t, s.Writes t n
      { r₀ with
        since := if decide (g.aspect ≠ a) then r.changeDate e else r₀.since
        conds := g.proved r₀.conds
        kind := .signal (g.proceeded a (durationOf r e (decide (g.aspect ≠ a)))) }
      (decide (g.aspect ≠ a) || (g.clearing.isSome && r₀.conds.active .signalSlowClear)) ∧
      s.signalProceeds n r g a e = if g.requested = .stop ∧ decide (g.aspect ≠ a) then
          (t.endCause (.object n) .signalLampFault).raiseMomentary (.object n) .signalUncommanded
            (.signalUncommanded g.aspect a)
        else t.endCause (.object n) .signalLampFault := by
    cases clearing : g.clearing with
    | some c =>
      refine ⟨_, ((State.Writes.indicated stored (decide (g.aspect ≠ a)) (r.changeDate e) (.signal { g with
        aspect := a
        clearing := none
        lastDuration := some (durationOf r e (decide (g.aspect ≠ a)) c.requestMark) })).endCause
          .signalSlowClear).of_eq ?_ rfl, ?_⟩
      · simp only [SignalRec.proved, SignalRec.proceeded, clearing]
        rfl
      · rw [State.signalProceeds, clearing]
    | none =>
      refine ⟨_, (State.Writes.indicated stored (decide (g.aspect ≠ a)) (r.changeDate e)
        (.signal { g with aspect := a })).of_eq ?_ (Bool.or_false _).symm, ?_⟩
      · simp only [SignalRec.proved, SignalRec.proceeded, clearing]
        rfl
      · rw [State.signalProceeds, clearing]
  obtain ⟨t, writes, eq⟩ := shown
  rw [eq]
  have ended := (writes.endCause .signalLampFault).of_eq rfl (congrArg _ (g.active_proved r₀.conds))
  by_cases forbidden : g.requested = .stop ∧ g.aspect ≠ a
  · rw [if_pos (by simpa using forbidden), if_pos forbidden]
    refine (ended.raiseMomentary ..).of_eq rfl ?_
    simp [forbidden.2]
  · rw [if_neg (by simpa using forbidden), if_neg forbidden]
    exact ended

/-- Any other aspect: a lamp fault begins with DARK, and ends with a lit aspect (R73). -/
theorem State.Writes.signalInd_other (stored : s.object n = some r₀) (other : a.isProceed = false) :
    s.Writes (s.signalInd n r g a e) n
    { r₀ with
      since := if decide (g.aspect ≠ a) then r.changeDate e else r₀.since
      conds := if a = .dark then s.withCause r₀.conds .signalLampFault (.signalLampFault g.aspect)
        else r₀.conds.without .signalLampFault
      kind := .signal { g with aspect := a } }
    (decide (g.aspect ≠ a) || (if a = .dark then !r₀.conds.active .signalLampFault
      else r₀.conds.active .signalLampFault)) := by
  have shown := State.Writes.indicated stored (decide (g.aspect ≠ a)) (r.changeDate e) (.signal { g with aspect := a })
  rw [State.signalInd, other, if_neg Bool.false_ne_true]
  cases a with
  | dark => exact (shown.beginCause _ _).of_eq rfl rfl
  | unknown | stop => exact (shown.endCause _).of_eq rfl rfl
  | restrict | caution | proceed => exact absurd other (by decide)

end SignalInd

theorem State.applyEntry_signalCmd {s : State} {e : TelegramEntry} {r : ObjectRec} {g : SignalRec} {q : Requested}
    (stored : s.object e.object = some r) (kind : r.kind = .signal g) (command : e.content = .signalCmd q) :
    s.applyEntry e = s.signalCmd e.object r g q e := by
  rw [State.applyEntry, stored]
  dsimp only
  rw [command, kind]

theorem State.applyEntry_signalInd {s : State} {e : TelegramEntry} {r : ObjectRec} {g : SignalRec} {a : Aspect}
    (stored : s.object e.object = some r) (kind : r.kind = .signal g) (indication : e.content = .signalInd a) :
    s.applyEntry e = (s.clearStale e.object r).signalInd e.object r g a e := by
  rw [State.applyEntry, stored]
  dsimp only
  rw [indication, kind]

theorem State.signalInd_proceeds {s : State} {n : Nat} {r : ObjectRec} {g : SignalRec} {a : Aspect} {e : TelegramEntry}
    (proceeds : a.isProceed = true) : s.signalInd n r g a e = s.signalProceeds n r g a e := if_pos proceeds

/-- Settles O37: a command writes the request and the clearing; an indication clears the stale mark, then writes the aspect
and ends or begins its causes. -/
theorem signalFollowsCommandsAndIndications : Obligations.SignalFollowsCommandsAndIndications := by
  unfold Obligations.SignalFollowsCommandsAndIndications
  intro s i e rest r g held head low high stored link kind popped write ms last date
  have writes : ∀ k, popped.setKind e.object k = popped.setObject e.object { r with kind := k } :=
    State.setKind_of stored
  have commanded : ∀ q, e.content = .signalCmd q →
      exec (.takeTelegramEntry i) s = .next (popped.signalCmd e.object r g q e).settle := fun q command =>
    (State.exec_appliesEntry held head ⟨low, high⟩ stored link (by rw [kind, command]; rfl)
      (by rw [TelegramEntry.source, command])).trans
      (next_settle (State.applyEntry_signalCmd (s := popped) stored kind command))
  refine ⟨fun off stop idle => (commanded _ off).trans (next_settle ?_), fun off other =>
    (commanded _ off).trans (next_settle ?_), fun stop => (commanded _ stop).trans (next_settle ?_), ?_⟩
  · rw [State.signalCmd, if_pos ⟨stop, by rw [idle]; rfl⟩, writes]
    rfl
  · rw [State.signalCmd, if_neg, writes]
    rw [Option.isNone_iff_eq_none]
    exact fun both => other.elim (· both.1) (· both.2)
  · rw [State.signalCmd, writes]
  · intro a indication proceeds completes valid now proved lamp altered
    have served : exec (.takeTelegramEntry i) s = .next (((popped.clearStale e.object r).signalInd e.object r g a e).settle) :=
      (State.exec_appliesEntry held head ⟨low, high⟩ stored link (by rw [kind, indication]; rfl)
        (by rw [TelegramEntry.source, indication])).trans
        (next_settle (State.applyEntry_signalInd (s := popped) stored kind indication))
    have unknown : r.kind.isUnknown = decide (g.aspect = .unknown) := by rw [kind]; rfl
    have dated : r.changeDate e = date := by
      rw [ObjectRec.changeDate_eq r e _ unknown]
      simp only [decide_eq_true_iff]
      rfl
    have duration : ∀ start, durationOf r e (decide (g.aspect ≠ a)) start = encodeDuration (e.mark - start) valid :=
      fun start => by
        rw [durationOf_eq r e start unknown]
        simp only [decide_eq_false_iff_not, decide_eq_true_iff]
        rfl
    have since : (if decide (g.aspect ≠ a) = true then r.changeDate e else r.since) =
        if g.aspect = a then r.since else date := by
      rw [dated]
      by_cases same : g.aspect = a <;> simp [same]
    have cleared := State.Writes.clearStale (s := popped) stored
    have raised : ∀ (cs : CondSet) c x, cs.raised c (popped.clearStale e.object r).now
        (popped.clearStale e.object r).elapsed x = cs.raised c now s.tb.elapsed x := fun cs c x => by
      rw [cleared.frame.eq]
      rfl
    by_cases isProceed : a.isProceed = true
    · have isOne : proceeds := (Aspect.isProceed_iff a).mp isProceed
      have lit : a ≠ .dark := Aspect.ne_dark_of_isProceed isProceed
      have provedEq : g.proved r.conds = proved := by
        simp only [SignalRec.proved, proved, completes, isOne, true_and]
      have lampEq : proved.without .signalLampFault = lamp := (if_neg lit).symm
      rw [State.signalInd_proceeds isProceed] at served
      refine State.Writes.taken served ((cleared.trans (.signalProceeds cleared.object)).of_eq ?_ rfl) ?_
      · rw [raised]
        simp only [provedEq, lampEq, since, SignalRec.proceeded, duration, isOne, true_and, if_true] <;> rfl
      · simp only [altered, completes, isOne, lit, true_and, false_iff, Bool.or_eq_true, Bool.and_eq_true, decide_eq_true_iff,
          Bool.not_eq_false]
        rw [or_assoc, or_left_comm (b := r.stale.isSome = true)]
    · have isNot : ¬ proceeds := mt (Aspect.isProceed_iff a).mpr isProceed
      refine State.Writes.taken served ((cleared.trans (.signalInd_other cleared.object (by simpa using isProceed))).of_eq
        ?_ rfl) ?_
      · have provedEq : proved = r.conds := if_neg fun both => isNot both.1
        rw [cleared.withCause_eq]
        simp only [lamp, provedEq, since, isNot, false_and, if_false]
        cases clearing : g.clearing <;> rfl
      · have bothCases : (if a = .dark then !r.conds.active .signalLampFault else r.conds.active .signalLampFault) = true ↔
            (a = .dark ↔ r.conds.active .signalLampFault = false) := by
          by_cases dark : a = .dark <;> simp [dark]
        simp only [altered, completes, isNot, false_and, false_or, Bool.or_eq_true, decide_eq_true_iff, bothCases]
        rw [or_left_comm]

end Sys2Proof.Machine
end

section
/-! PROOFS. The berth telegrams: what a berth that empties or fills writes, reports and hands to the Timetable Checker: O38. -/

namespace Sys2Proof.Machine

/-! ### What an operation at one berth leaves -/

/-- From one state to another only the record of a number is written, to the record given; its slots are marked where it is
reported, and the events are handed after those that stood. -/
structure State.Hands (s t : State) (n : Nat) (r : ObjectRec) (reports : Bool) (events : List BerthEvent) : Prop where
  frame : ObjectFrame s t n
  object : t.object n = some r
  events : t.berthEvents = s.berthEvents ++ events
  watch : t.watch = slotsAfter s.watch n reports

section Berth

variable {s : State} {n : Nat} {r : ObjectRec} {b : BerthRec} {e : TelegramEntry} {date : Date}

/-- A berth that is emptied (R76, R78, R79). -/
theorem State.hands_vacate (stored : s.object n = some r) (kind : r.kind = .berth b) (dated : r.changeDate e = date) :
    s.Hands ((s.clearStale n r).vacate n r b e) n
      { r with
        stale := none
        since := if b.occupancy = .empty then r.since else date
        conds := r.conds.afterExit (match b.occupancy with
          | .occupied x => some x
          | .empty => none
          | .unknown => none)
        kind := .berth { b with occupancy := .empty } }
      (r.stale.isSome || decide (b.occupancy ≠ .empty))
      (match b.occupancy with
        | .occupied x => [⟨n, x, .exit, date⟩]
        | .empty => []
        | .unknown => []) := by
  have cleared := State.Writes.clearStale stored
  obtain ⟨frame, events, watch, object⟩ := State.vacate_spec b e kind cleared.object date dated
  refine ⟨cleared.frame.trans frame, object, events.trans (congrArg (· ++ _) cleared.events), watch.trans ?_⟩
  rw [cleared.watch, ← slotsAfter_slotsAfter]
  by_cases empty : b.occupancy = .empty <;> simp [empty]

/-- A headcode that enters a berth, and sends out the one it finds there (R76, R77, R79). -/
theorem State.hands_occupy {h : Headcode} (stored : s.object n = some r) (kind : r.kind = .berth b)
    (dated : r.changeDate e = date) : s.Hands ((s.clearStale n r).occupy n r b h e) n
      { r with
        stale := none
        since := if b.occupancy = .occupied h then r.since else date
        conds := r.conds.afterExit (match b.occupancy with
          | .occupied x => if x = h then none else some x
          | .empty => none
          | .unknown => none)
        kind := .berth { b with occupancy := .occupied h } }
      (r.stale.isSome || decide (b.occupancy ≠ .occupied h))
      (match b.occupancy with
        | .occupied x => if x = h then [] else [⟨n, x, .exit, date⟩, ⟨n, h, .entry b.timing, date⟩]
        | .empty => [⟨n, h, .entry b.timing, date⟩]
        | .unknown => [⟨n, h, .entry b.timing, date⟩]) := by
  have cleared := State.Writes.clearStale stored
  obtain ⟨frame, events, watch, object⟩ := State.occupy_spec b h e kind cleared.object date dated
  refine ⟨cleared.frame.trans frame, object, events.trans (congrArg (· ++ _) cleared.events), watch.trans ?_⟩
  rw [cleared.watch, ← slotsAfter_slotsAfter]
  by_cases there : b.occupancy = .occupied h <;> simp [there]

end Berth

/-! ### The watch slots -/

section Slots

variable {v : Vec WatchSlot 16} {n m : Nat} {a b : Bool} {P Q : Prop}

/-- One record is reported or not: exactly its slots are marked. -/
theorem get_slotsAfter_one (reports : a = true ↔ P) (k : Fin 16) :
    ((∃ x, (v.get k).subject = .object x ∧ x = n ∧ P) →
      (slotsAfter v n a).get k = { v.get k with changed := true }) ∧
    ((∀ x, (v.get k).subject = .object x → ¬ (x = n ∧ P)) → (slotsAfter v n a).get k = v.get k) := by
  rw [get_slotsAfter]
  refine ⟨?_, fun none => if_neg fun marked => none n marked.2 ⟨rfl, reports.mp marked.1⟩⟩
  rintro ⟨x, watched, rfl, altered⟩
  exact if_pos ⟨reports.mpr altered, watched⟩

/-- Two records are reported or not: exactly their slots are marked. -/
theorem get_slotsAfter_two (other : m ≠ n) (first : a = true ↔ Q) (second : b = true ↔ P) (k : Fin 16) :
    ((∃ x, (v.get k).subject = .object x ∧ ((x = n ∧ P) ∨ (x = m ∧ Q))) →
      (slotsAfter (slotsAfter v m a) n b).get k = { v.get k with changed := true }) ∧
    ((∀ x, (v.get k).subject = .object x → ¬ ((x = n ∧ P) ∨ (x = m ∧ Q))) →
      (slotsAfter (slotsAfter v m a) n b).get k = v.get k) := by
  have subject : ((slotsAfter v m a).get k).subject = (v.get k).subject := by
    rw [get_slotsAfter]
    split <;> rfl
  rw [get_slotsAfter (slotsAfter v m a) n b k, subject]
  constructor
  · rintro ⟨x, watched, ⟨rfl, altered⟩ | ⟨rfl, altered⟩⟩
    · rw [if_pos ⟨second.mpr altered, watched⟩, get_slotsAfter, if_neg]
      rintro ⟨-, same⟩
      exact other (Watched.object.inj (same.symm.trans watched))
    · rw [if_neg, get_slotsAfter, if_pos ⟨first.mpr altered, watched⟩]
      rintro ⟨-, same⟩
      exact other (Watched.object.inj (watched.symm.trans same))
  · intro none
    rw [if_neg fun marked => none n marked.2 (.inl ⟨rfl, second.mp marked.1⟩), get_slotsAfter]
    exact if_neg fun marked => none m marked.2 (.inr ⟨rfl, first.mp marked.1⟩)

end Slots

/-! ### Taking a berth telegram (R52, R76) -/

section Taking

variable {s : State} {i : Fin 4} {e : TelegramEntry} {rest : List QueueEntry} {r : ObjectRec} {b : BerthRec}

/-- An entry that passes its checks is applied. -/
theorem State.exec_applies (held : s.held = false) (head : (s.link i).queue = .telegram e :: rest)
    (passes : s.checkEntry e = none) :
    exec (.takeTelegramEntry i) s = .next ((s.withoutHead i rest).applyEntry e).settle := by
  rw [State.exec_takeTelegramEntry held head, State.serveEntry,
    show (s.withoutHead i rest).checkEntry e = s.checkEntry e from rfl, passes]

/-- The frame of commands that write two records. -/
theorem State.settle_of_frame {t : State} (eq : t = { s.withoutHead i rest with
      objects := t.objects, watch := t.watch, berthEvents := t.berthEvents }) :
    t.settle = { s with
      links := (s.withoutHead i rest).links, objects := t.settle.objects, watch := t.settle.watch
      berthEvents := t.settle.berthEvents, attnU := t.settle.attnU, attnR := t.settle.attnR } := by
  have settled : ∀ a b, { t with attnU := a, attnR := b } = { s with
      links := (s.withoutHead i rest).links, objects := t.objects, watch := t.watch, berthEvents := t.berthEvents
      attnU := a, attnR := b } := fun a b => by
    rw [eq]
    rfl
  exact settled _ _

theorem State.applyEntry_berthCancel (stored : s.object e.object = some r) (kind : r.kind = .berth b)
    (cancel : e.content = .berthCancel) : s.applyEntry e = (s.clearStale e.object r).vacate e.object r b e := by
  rw [State.applyEntry, stored]
  dsimp only
  rw [cancel, kind]

theorem State.applyEntry_berthStep {f : Nat} {h : Headcode} (stored : s.object e.object = some r)
    (kind : r.kind = .berth b) (step : e.content = .berthStep f h) :
    s.applyEntry e = ((s.leaveSource e).clearStale e.object r).occupy e.object r b h e := by
  rw [State.applyEntry, stored]
  dsimp only
  rw [step, kind]

theorem State.leaveSource_none (source : e.source = none) : s.leaveSource e = s := by
  rw [State.leaveSource, source]

theorem State.leaveSource_same (source : e.source = some e.object) : s.leaveSource e = s := by
  rw [State.leaveSource, source]
  exact if_pos rfl

theorem State.leaveSource_other {f : Nat} {g : ObjectRec} {c : BerthRec} (source : e.source = some f)
    (other : f ≠ e.object) (stored : s.object f = some g) (kind : g.kind = .berth c) :
    s.leaveSource e = (s.clearStale f g).vacate f g c e := by
  rw [State.leaveSource, source]
  dsimp only
  rw [if_neg other, stored]
  dsimp only
  rw [kind]

end Taking

/-- Settles O38: a telegram of one berth writes and reports its record and hands its events; a step from another berth
empties that one first. -/
theorem berthTelegramsHandTheirEvents : Obligations.BerthTelegramsHandTheirEvents := by
  unfold Obligations.BerthTelegramsHandTheirEvents
  intro s i e rest r b held head low high stored link kind dateIn date frame afterExit marks emptied emptying leaving
  have dates : ∀ (x : ObjectRec) (c : BerthRec), x.kind = .berth c →
      x.changeDate e = dateIn x (decide (c.occupancy ≠ .unknown)) := fun x c isBerth => by
    have unknown : x.kind.isUnknown = decide (c.occupancy = .unknown) := by rw [isBerth]; rfl
    rw [ObjectRec.changeDate_eq x e _ unknown]
    simp only [decide_eq_true_iff, dateIn, decide_eq_false_iff_not, not_not, ne_eq] <;> rfl
  have alters : ∀ {stale : Option StationQ} {p : Prop} [Decidable p],
      (stale.isSome || decide p) = true ↔ p ∨ stale.isSome = true := fun {stale p _} => by
    rw [Bool.or_eq_true, decide_eq_true_iff, or_comm]
  refine ⟨fun cancel => ?_, ?_⟩
  · have served := (State.exec_appliesEntry held head ⟨low, high⟩ stored link (by rw [kind, cancel]; rfl)
      (by rw [TelegramEntry.source, cancel])).trans
      (next_settle (State.applyEntry_berthCancel (s := s.withoutHead i rest) stored kind cancel))
    have hands := State.hands_vacate (s := s.withoutHead i rest) stored kind (dates r b kind)
    refine ⟨_, served, State.settle_of_frame hands.frame.eq, hands.object, hands.events, fun k => ?_, hands.frame.others⟩
    exact hands.watch ▸ get_slotsAfter_one alters k
  · intro f h step arriving arrived arrives
    have passes := State.checkRecord_passes (k := e.content.needs) ⟨low, high⟩ stored (by rw [kind, step]; rfl) link
    constructor
    · intro single
      have stays : s.checkEntry e = none ∧ (s.withoutHead i rest).leaveSource e = s.withoutHead i rest := by
        by_cases alone : e.refresh = true ∨ f = 0
        · have source := TelegramEntry.source_none step alone
          exact ⟨by rw [State.checkEntry, passes, source], State.leaveSource_none source⟩
        · obtain ⟨first, from_berth⟩ := not_or.mp alone
          have same : f = e.object := single.elim (absurd · first) (·.resolve_left from_berth)
          have source := TelegramEntry.source_step step (by simpa using first) from_berth
          rw [same] at source
          exact ⟨(State.checkEntry_source passes source).trans
            (State.checkRecord_passes ⟨low, high⟩ stored (by rw [kind]; rfl) link), State.leaveSource_same source⟩
      have served := (State.exec_applies held head stays.1).trans
        (next_settle (State.applyEntry_berthStep (s := s.withoutHead i rest) stored kind step))
      rw [stays.2] at served
      have hands := State.hands_occupy (s := s.withoutHead i rest) (h := h) stored kind (dates r b kind)
      refine ⟨_, served, State.settle_of_frame hands.frame.eq, hands.object, hands.events, fun k => ?_, hands.frame.others⟩
      exact hands.watch ▸ get_slotsAfter_one alters k
    · intro g c first fromLow fromHigh other origin fromLink fromKind left
      have source := TelegramEntry.source_step step first (by omega)
      have checks : s.checkEntry e = none := (State.checkEntry_source passes source).trans
        (State.checkRecord_passes ⟨fromLow, fromHigh⟩ origin (by rw [fromKind]; rfl) fromLink)
      have served := (State.exec_applies held head checks).trans
        (next_settle (State.applyEntry_berthStep (s := s.withoutHead i rest) stored kind step))
      rw [State.leaveSource_other (s := s.withoutHead i rest) source other origin fromKind] at served
      have leaves := State.hands_vacate (s := s.withoutHead i rest) origin fromKind (dates g c fromKind)
      have enters := State.hands_occupy (h := h) ((leaves.frame.others _ (Ne.symm other)).trans stored) kind (dates r b kind)
      refine ⟨_, served, State.settle_of_frame ?_, enters.object, (enters.frame.others f other).trans leaves.object,
        enters.events.trans (congrArg (· ++ _) leaves.events), fun k => ?_,
        fun n notTo notFrom => (enters.frame.others n notTo).trans (leaves.frame.others n notFrom)⟩
      · calc _ = _ := enters.frame.eq
          _ = _ := by rw [leaves.frame.eq]
      · exact enters.watch ▸ leaves.watch ▸ get_slotsAfter_two other alters alters k

end Sys2Proof.Machine
end

section
/-! PROOFS. LOAD PATH (R89, R90): O42, with what the requests that store a path have in common. -/

namespace Sys2Proof.Machine

/-! ### What storing a new path makes (R90, R93) -/

section Store

variable {s : State} {n day : Nat} {h : Headcode} {plans : List Plan} {first : Plan}

/-- A new path is LOADED, its activation time computed from its first timing point. -/
theorem State.newPath_eq (head : plans.head? = some first) : s.newPath h day plans =
    ⟨h, day, .loaded, s.activationTime day first, plans.map fun p => ⟨p, none⟩, 0, 0, none, none, none, [], false,
      false⟩ := by
  cases plans with
  | nil => exact absurd head (by simp)
  | cons p rest =>
    cases Option.some.inj head
    rfl

theorem State.path_storePath (p : PathRec) : ((s.storePath n p).disturb).path n = some p := Store.get_set_self ..

/-- A path whose activation time is not due is stored and stays LOADED. -/
theorem State.loadPath_early (head : plans.head? = some first) (early : s.timeDue (s.activationTime day first) = false) :
    s.loadPath n h day plans = (s.storePath n (s.newPath h day plans)).disturb := by
  rw [State.loadPath, State.armIfDue_of (State.path_storePath _), if_neg]
  rintro ⟨-, due⟩
  rw [State.newPath_eq head] at due
  exact absurd (early.symm.trans due) (by simp)

/-- A path whose activation time is due is stored and armed at once. -/
theorem State.loadPath_due (head : plans.head? = some first) (due : s.timeDue (s.activationTime day first) = true) :
    s.loadPath n h day plans =
      ((s.storePath n (s.newPath h day plans)).disturb).activate n (s.newPath h day plans) := by
  rw [State.loadPath, State.armIfDue_of (State.path_storePath _), if_pos]
  rw [State.newPath_eq head]
  exact ⟨rfl, due⟩

theorem State.path_activate (p : PathRec) :
    (s.activate n p).path n = some { p with state := .armed, deadline := p.overdueDeadline } := by
  rw [State.path, State.activate_tc]
  exact Store.get_set_self ..

theorem State.pathState_of {p : PathRec} (stored : s.path n = some p) : s.pathState n = p.state := by
  rw [State.pathState, stored]
  rfl

/-- A time has come. -/
theorem State.timeDue_reached {time : Nat} (serving : s.tc.service = .serving) (reached : time ≤ s.tb.stationUs / 1000) :
    s.timeDue time = true := State.timeDue_iff.mpr ⟨serving, by exact_mod_cast reached⟩

end Store

/-! ### The checks of a new path's plan (R89) -/

section Checks

variable {s : State} {n : Nat} {plans : List Plan} {made : Edit}

/-- The checks 7 to 12 of LOAD PATH, before the path is made. -/
def State.loadChecks (s : State) (n : Nat) (plans : List Plan) (made : Edit) : Edit :=
  if s.taken n then .refuse .numberInUse n none
  else
    match firstBad s.namesStored plans with
    | some i => .refuse .badObject n (some i)
    | none =>
      match firstDecrease plans with
      | some i => .refuse .order n (some i)
      | none =>
        if s.storeFull 1 then .refuse .storeFull n none
        else if s.tc.poolFree < plans.length then .refuse .poolFull n none
        else made

theorem State.loadChecks_taken (taken : s.taken n = true) :
    s.loadChecks n plans made = .refuse .numberInUse n none := if_pos taken

variable (free : ¬ s.taken n = true)
include free

theorem State.loadChecks_badObject {i : Nat} (bad : firstBad s.namesStored plans = some i) :
    s.loadChecks n plans made = .refuse .badObject n (some i) := by
  rw [State.loadChecks, if_neg free, bad]

variable (named : firstBad s.namesStored plans = none)
include named

theorem State.loadChecks_order {i : Nat} (decreases : firstDecrease plans = some i) :
    s.loadChecks n plans made = .refuse .order n (some i) := by
  rw [State.loadChecks, if_neg free, named]
  dsimp only
  rw [decreases]

/-- A plan that passes the checks of its entries needs a place and its entries. -/
theorem State.loadChecks_ordered (ordered : firstDecrease plans = none) : s.loadChecks n plans made =
    if s.storeFull 1 then .refuse .storeFull n none
    else if s.tc.poolFree < plans.length then .refuse .poolFull n none else made := by
  rw [State.loadChecks, if_neg free, named]
  dsimp only
  rw [ordered]

end Checks

/-! ### The body of LOAD PATH (Table 11-3) -/

section Body

variable {body : List Byte} {s : State}

theorem loadHeaderOk_iff : loadHeaderOk body = true ↔ 1 ≤ field body 0 2 ∧ (Headcode.ofBytes body 2).wellFormed = true ∧
    2 ≤ (byteAt body 8).toNat ∧ (byteAt body 8).toNat ≤ 64 := by
  simp only [loadHeaderOk, Bool.and_eq_true, decide_eq_true_iff, Nat.one_le_iff_ne_zero, ne_eq, and_assoc]

theorem editLoadPath_header (out : loadHeaderOk body = false) :
    editLoadPath body s = .refuse .outOfRange (field body 0 2) none := by
  rw [editLoadPath, out]
  rfl

theorem editLoadPath_entry {i : Nat} (header : loadHeaderOk body = true)
    (bad : firstBad Option.isSome (loadEntries body) = some i) :
    editLoadPath body s = .refuse .outOfRange (field body 0 2) (some i) := by
  rw [editLoadPath, header, bad]
  rfl

theorem editLoadPath_checks {plans : List Plan} (header : loadHeaderOk body = true)
    (entries : loadEntries body = plans.map some) : editLoadPath body s = s.loadChecks (field body 0 2) plans
      (.accept (s.loadPath (field body 0 2) (Headcode.ofBytes body 2) (field body 6 2) plans) .ok
        (.pathState ((s.loadPath (field body 0 2) (Headcode.ofBytes body 2) (field body 6 2) plans).pathState
          (field body 0 2)))) := by
  have good : firstBad Option.isSome (loadEntries body) = none := by
    rw [firstBad_none, entries]
    simp
  have read : (loadEntries body).filterMap id = plans := by
    rw [entries, List.filterMap_map]
    exact List.filterMap_some
  rw [editLoadPath, header, good, read]
  rfl

/-- The first entry outside its ranges. -/
theorem firstBad_loadEntries {i : Nat} (within : i < (byteAt body 8).toNat) (bad : ¬ entryInRange body (9 + 14 * i))
    (before : ∀ k < i, entryInRange body (9 + 14 * k)) : firstBad Option.isSome (loadEntries body) = some i := by
  refine firstBad_eq (x := planOf body (9 + 14 * i)) ?_ (Bool.eq_false_iff.mpr (mt planOf_isSome.mp bad)) ?_
  · rw [loadEntries, List.getElem?_map, List.getElem?_range within]
    rfl
  · intro y mem
    rw [loadEntries, ← List.map_take, List.take_range] at mem
    obtain ⟨k, small, rfl⟩ := List.mem_map.mp mem
    exact planOf_isSome.mpr (before k (by rw [List.mem_range] at small; omega))

section Written

variable {n day : Nat} {h : Headcode} {plans : List Plan}

/-- The body that LOAD PATH is sent with. -/
def loadBody (n : Nat) (h : Headcode) (day : Nat) (plans : List Plan) : List Byte :=
  toBe 2 n ++ h.bytes ++ toBe 2 day ++ [BitVec.ofNat 8 plans.length] ++ plans.flatMap Plan.bytes

theorem field_loadBody_number (range : n ≤ 65535) : field (loadBody n h day plans) 0 2 = n := by
  simp only [loadBody, toBe_two, Headcode.bytes, List.cons_append, List.nil_append, field, List.drop_zero,
    List.take_succ_cons, List.take_zero, beNat, List.foldl_cons, List.foldl_nil, BitVec.toNat_ofNat, Nat.zero_mul,
    Nat.zero_add, Nat.reducePow]
  exact two_bytes range

theorem field_loadBody_day (range : day ≤ 65535) : field (loadBody n h day plans) 6 2 = day := by
  simp only [loadBody, toBe_two, Headcode.bytes, List.cons_append, List.nil_append, field, List.drop_succ_cons,
    List.drop_zero, List.take_succ_cons, List.take_zero, beNat, List.foldl_cons, List.foldl_nil, BitVec.toNat_ofNat,
    Nat.zero_mul, Nat.zero_add, Nat.reducePow]
  exact two_bytes range

theorem headcode_loadBody : Headcode.ofBytes (loadBody n h day plans) 2 = h := rfl

theorem count_loadBody (short : plans.length ≤ 64) : (byteAt (loadBody n h day plans) 8).toNat = plans.length := by
  show (BitVec.ofNat 8 plans.length).toNat = plans.length
  rw [BitVec.toNat_ofNat]
  omega

end Written

end Body

/-- Settles O42: the body is read, the checks follow in their order, and the path is stored, at once armed where its
activation time has come. -/
theorem loadPathStoresThePlan : Obligations.LoadPathStoresThePlan := by
  unfold Obligations.LoadPathStoresThePlan
  constructor
  · intro f s admits n count header
    refine ⟨fun out => State.exec_refused admits rfl (editLoadPath_header ?_) rfl, fun i ok within bad before =>
      State.exec_refused admits rfl (editLoadPath_entry (loadHeaderOk_iff.mpr ok) (firstBad_loadEntries within bad before)) rfl⟩
    exact Bool.eq_false_iff.mpr (mt loadHeaderOk_iff.mp out)
  · intro f s n day h plans admits body low high dayRange wellFormed two short ranges reserved disturbed taken stored ordered
      roomy
    have body : f.body = loadBody n h day plans := body
    have number : field f.body 0 2 = n := by rw [body, field_loadBody_number high]
    have header : loadHeaderOk f.body = true := by
      rw [loadHeaderOk_iff, number, body, headcode_loadBody, count_loadBody short]
      exact ⟨low, wellFormed, two, short⟩
    have entries : loadEntries f.body = plans.map some := by
      rw [body]
      exact loadEntries_bytes _ plans rfl short fun p mem rest => by
        obtain ⟨berth, berth', planned, early, late, allowance, route⟩ := ranges p mem
        exact planOf_bytes rest ⟨berth, berth'⟩ planned early late allowance route
    have checks := editLoadPath_checks (s := s) header entries
    rw [number, show Headcode.ofBytes f.body 2 = h by rw [body, headcode_loadBody],
      show field f.body 6 2 = day by rw [body, field_loadBody_day dayRange]] at checks
    have named : (∀ p ∈ plans, stored p) → firstBad s.namesStored plans = none := fun all =>
      firstBad_none.mpr fun p mem => State.namesStored_iff.mpr (all p mem)
    have free : ¬ taken → ¬ s.taken n = true := mt State.taken_iff.mp
    have room : s.storeFull 1 = true ↔ ¬ roomy := State.storeFull_iff.trans (by
      rw [show roomy = (s.tc.paths.length + reserved + 1 ≤ 1024) from rfl, not_le] <;> rfl)
    refine ⟨fun isTaken => ?_, fun i p isFree at_i bad before => ?_, fun isFree all unordered => ?_,
      fun i a b isFree all at_i at_next less before => ?_, fun isFree all isOrdered full => ?_,
      fun isFree all isOrdered isRoomy short => ?_, ?_⟩
    · exact State.exec_refused admits rfl (checks.trans (State.loadChecks_taken (State.taken_iff.mpr isTaken))) rfl
    · refine State.exec_refused admits rfl (checks.trans (State.loadChecks_badObject (free isFree) (firstBad_eq at_i ?_ ?_))) rfl
      · exact Bool.eq_false_iff.mpr (mt State.namesStored_iff.mp bad)
      · exact fun q mem => State.namesStored_iff.mpr (before q mem)
    · obtain ⟨i, decreases⟩ := Option.ne_none_iff_exists'.mp (mt firstDecrease_none.mp unordered)
      exact ⟨i, State.exec_refused admits rfl (checks.trans (State.loadChecks_order (free isFree) (named all) decreases)) rfl⟩
    · exact State.exec_refused admits rfl (checks.trans (State.loadChecks_order (free isFree) (named all)
        (firstDecrease_eq at_i at_next less before))) rfl
    · exact State.exec_refused admits rfl (checks.trans ((State.loadChecks_ordered (free isFree) (named all)
        (firstDecrease_none.mpr isOrdered)).trans (if_pos (room.mpr full)))) rfl
    · exact State.exec_refused admits rfl (checks.trans ((State.loadChecks_ordered (free isFree) (named all)
        (firstDecrease_none.mpr isOrdered)).trans ((if_neg (by rw [room]; exact not_not.mpr isRoomy)).trans
          (if_pos short)))) rfl
    · intro first head isFree all isOrdered isRoomy enough activation record loaded
      have made := checks.trans ((State.loadChecks_ordered (free isFree) (named all)
        (firstDecrease_none.mpr isOrdered)).trans ((if_neg (by rw [room]; exact not_not.mpr isRoomy)).trans
          (if_neg (not_lt.mpr enough))))
      have recorded : s.newPath h day plans = record := State.newPath_eq head
      have stores : (s.storePath n (s.newPath h day plans)).disturb = loaded := by
        rw [recorded]
        have length : record.points.length = plans.length := List.length_map ..
        rw [State.storePath, length]
        rfl
      refine ⟨fun early => ?_, fun serving reached => ?_⟩
      · have loads := (State.loadPath_early (n := n) (h := h) head (State.not_timeDue early)).trans stores
        have state : loaded.pathState n = .loaded := State.pathState_of (p := record) (Store.get_set_self ..)
        rw [loads, state] at made
        exact State.exec_accepted admits rfl made
      · have loads := State.loadPath_due (n := n) (h := h) head (State.timeDue_reached serving reached)
        rw [stores, recorded] at loads
        rw [loads, State.pathState_of (State.path_activate record)] at made
        exact State.exec_accepted admits rfl made

end Sys2Proof.Machine
end

section
/-! PROOFS. AMEND TIMING POINT, SHIFT PATH and COPY PATH (R91 to R93): O43. -/

namespace Sys2Proof.Machine

/-- A check of a Bool fails exactly where what it says does not hold. -/
theorem not_eq_true_iff {b : Bool} {P : Prop} (h : b = true ↔ P) : (!b) = true ↔ ¬ P := by
  rw [Bool.not_eq_true', Bool.eq_false_iff, Ne, h]

/-! ### A LOADED path whose plan changes (R90 to R92) -/

section Reactivated

variable {s : State} {n : Nat} {p : PathRec} {x : TimingPoint}

/-- The activation time is computed from the first timing point (R90). -/
theorem State.reactivated_of (first : p.points[0]? = some x) :
    s.reactivated p = { p with activation := s.activationTime p.day x.plan } := by
  rw [State.reactivated, PathRec.point, first]

theorem State.path_setPath_disturb (q : PathRec) : ((s.setPath n q).disturb).path n = some q := Store.get_set_self ..

/-- A rewritten path is armed at once when it is LOADED and its time has come. -/
theorem State.armIfDue_written (q : PathRec) : ((s.setPath n q).disturb).armIfDue n =
    if q.state = .loaded ∧ s.timeDue q.activation = true then ((s.setPath n q).disturb).activate n q
    else (s.setPath n q).disturb := State.armIfDue_of (State.path_setPath_disturb q)

/-- The expiry of its time decides whether a rewritten LOADED path is armed. -/
theorem State.armIfDue_early (q : PathRec) (early : s.timeDue q.activation = false) :
    ((s.setPath n q).disturb).armIfDue n = (s.setPath n q).disturb := by
  rw [State.armIfDue_written, if_neg]
  rintro ⟨-, due⟩
  exact absurd (early.symm.trans due) (by simp)

theorem State.armIfDue_due (q : PathRec) (loaded : q.state = .loaded) (due : s.timeDue q.activation = true) :
    ((s.setPath n q).disturb).armIfDue n = ((s.setPath n q).disturb).activate n q := by
  rw [State.armIfDue_written, if_pos ⟨loaded, due⟩]

end Reactivated

/-! ### AMEND TIMING POINT (R91) -/

section Amend

variable {s : State} {body : List Byte} {p : PathRec} {plan : Plan} {index : Nat} {n : Nat} {x : TimingPoint}

theorem PathState.underWay_iff {st : PathState} : st.underWay = true ↔ st = .armed ∨ st = .running := by
  cases st <;> simp [PathState.underWay]

theorem editAmendTimingPoint_out
    (out : ¬ (entryInRange body 3 ∧ 1 ≤ field body 0 2 ∧ (byteAt body 2).toNat ≤ 63)) :
    editAmendTimingPoint body s = .refuse .outOfRange (field body 0 2) (some (byteAt body 2).toNat) := by
  unfold editAmendTimingPoint
  dsimp only
  split
  · rfl
  · next plan read =>
    rw [if_pos]
    have entry : entryInRange body 3 := planOf_isSome.mp (by rw [read]; rfl)
    omega

theorem editAmendTimingPoint_none (inRange : entryInRange body 3 ∧ 1 ≤ field body 0 2 ∧ (byteAt body 2).toNat ≤ 63)
    (empty : s.path (field body 0 2) = none) :
    editAmendTimingPoint body s = .refuse .noSuch (field body 0 2) (some (byteAt body 2).toNat) := by
  obtain ⟨entry, low, high⟩ := inRange
  obtain ⟨plan, read⟩ := Option.isSome_iff_exists.mp (planOf_isSome.mpr entry)
  rw [editAmendTimingPoint, read]
  dsimp only
  rw [if_neg (by omega), empty]

/-- The checks of an amendment of a stored path, in the order of Table 5-6. -/
theorem editAmendTimingPoint_stored (low : 1 ≤ field body 0 2) (high : (byteAt body 2).toNat ≤ 63)
    (stored : s.path (field body 0 2) = some p) (read : planOf body 3 = some plan) : editAmendTimingPoint body s =
      if p.templateInUse then .refuse .inUse (field body 0 2) (some (byteAt body 2).toNat)
      else if !p.state.live then .refuse .stateConflict (field body 0 2) (some (byteAt body 2).toNat)
      else if p.state.underWay && decide ((byteAt body 2).toNat < p.passed + 2) then
        .refuse .notWhileRunning (field body 0 2) (some (byteAt body 2).toNat)
      else if !s.namesStored plan then .refuse .badObject (field body 0 2) (some (byteAt body 2).toNat)
      else if !p.keepsOrder (byteAt body 2).toNat plan then .refuse .order (field body 0 2) (some (byteAt body 2).toNat)
      else if p.points.length ≤ (byteAt body 2).toNat then
        .refuse .outOfRange (field body 0 2) (some (byteAt body 2).toNat)
      else .accept (s.amendPoint (field body 0 2) p (byteAt body 2).toNat plan) .ok .none := by
  rw [editAmendTimingPoint, read]
  dsimp only
  rw [if_neg (by omega), stored]

/-- Exactly one timing point is given the new plan (R91). -/
theorem PathRec.replan_eq (there : p.points[index]? = some x) :
    p.replan index plan = { p with points := p.points.set index { x with plan := plan } } := by
  rw [PathRec.replan, List.modify_eq_set_getElem?, there]
  rfl

theorem PathRec.replan_first (there : p.points[0]? = some x) :
    ({ p with points := p.points.set 0 { x with plan := plan } } : PathRec).points[0]? = some { x with plan := plan } :=
  List.getElem?_set_self (List.getElem?_eq_some_iff.mp there).1

/-- An amendment that moves no activation time (R91). -/
theorem State.amendPoint_later (there : p.points[index]? = some x) (later : index ≠ 0 ∨ p.state ≠ .loaded) :
    s.amendPoint n p index plan =
      (s.setPath n { p with points := p.points.set index { x with plan := plan } }).disturb := by
  rw [State.amendPoint, PathRec.replan_eq there, if_neg]
  rintro ⟨zero, loaded⟩
  exact later.elim (absurd zero) (absurd loaded)

/-- An amendment of the first point of a LOADED path moves its activation time (R91). -/
theorem State.amendPoint_first (zero : index = 0) (there : p.points[index]? = some x) (loaded : p.state = .loaded) :
    s.amendPoint n p index plan = ((s.setPath n { p with
      points := p.points.set index { x with plan := plan }
      activation := s.activationTime p.day plan }).disturb).armIfDue n := by
  subst zero
  rw [State.amendPoint, PathRec.replan_eq there, if_pos ⟨rfl, loaded⟩, State.reactivated_of (PathRec.replan_first there)]

end Amend

/-! ### SHIFT PATH (R92, R120) -/

section Shift

variable {s : State} {body : List Byte} {p : PathRec} {delta : Int} {n : Nat} {x : TimingPoint}

theorem editShiftPath_out
    (out : ¬ (1 ≤ field body 0 2 ∧ -720 ≤ signed16 (field body 2 2) ∧ signed16 (field body 2 2) ≤ 720)) :
    editShiftPath body s = .refuse .outOfRange (field body 0 2) none := if_pos (by omega)

theorem editShiftPath_none
    (inRange : 1 ≤ field body 0 2 ∧ -720 ≤ signed16 (field body 2 2) ∧ signed16 (field body 2 2) ≤ 720)
    (empty : s.path (field body 0 2) = none) : editShiftPath body s = .refuse .noSuch (field body 0 2) none := by
  rw [editShiftPath, if_neg (by omega), empty]

/-- The checks of a shift of a stored path, in the order of Table 5-6. -/
theorem editShiftPath_stored
    (inRange : 1 ≤ field body 0 2 ∧ -720 ≤ signed16 (field body 2 2) ∧ signed16 (field body 2 2) ≤ 720)
    (stored : s.path (field body 0 2) = some p) : editShiftPath body s =
      if p.templateInUse then .refuse .inUse (field body 0 2) none
      else if !p.state.live then .refuse .stateConflict (field body 0 2) none
      else if !p.shiftKeepsOrder (signed16 (field body 2 2)) then .refuse .order (field body 0 2) none
      else if !((p.points.drop p.passed).all fun t => shiftOk (signed16 (field body 2 2)) t.plan) then
        .refuse .outOfRange (field body 0 2) none
      else .accept (s.shiftPath (field body 0 2) p (signed16 (field body 2 2))) .ok .none := by
  rw [editShiftPath, if_neg (by omega), stored]

/-- A shift of a LOADED path moves its activation time (R92). -/
theorem State.shiftPath_loaded (loaded : p.state = .loaded) (first : (p.shift delta).points[0]? = some x) :
    s.shiftPath n p delta = ((s.setPath n { p.shift delta with
      activation := s.activationTime p.day x.plan }).disturb).armIfDue n := by
  rw [State.shiftPath, if_pos loaded, State.reactivated_of first]
  rfl

theorem PathRec.due_of (next : p.points[p.passed]? = some x) : p.due = some x.plan := by
  rw [PathRec.due, PathRec.point, next]
  rfl

/-- The first OVERDUE deadline (R117). -/
theorem PathRec.overdueDeadline_of (next : p.points[p.passed]? = some x) :
    p.overdueDeadline = some ⟨p.projectedAt x.plan + (x.plan.late : Int) * 1000, .overdue⟩ := by
  rw [PathRec.overdueDeadline, PathRec.due_of next]
  rfl

/-- A shift of a live path moves its deadline (R120). -/
theorem State.shiftPath_live (live : p.state ≠ .loaded) (next : (p.shift delta).points[p.passed]? = some x) :
    s.shiftPath n p delta = ((s.setPath n { p.shift delta with
      deadline := some ⟨p.projectedAt x.plan + (x.plan.late : Int) * 1000, .overdue⟩ }).disturb).renewOverdue n := by
  rw [State.shiftPath, if_neg live, PathRec.overdueDeadline_of (p := p.shift delta) next]
  rfl

/-- A path rewritten twice is rewritten once. -/
theorem State.setPath_disturb (q q' : PathRec) : ((s.setPath n q).disturb).setPath n q' = (s.setPath n q').disturb := by
  show ((s.setPath n q).setPath n q').disturb = _
  rw [State.setPath_setPath]

end Shift

/-! ### COPY PATH (R93) -/

section Copy

variable {s : State} {body : List Byte} {p : PathRec}

theorem editCopyPath_out (out : ¬ (1 ≤ field body 0 2 ∧ 1 ≤ field body 2 2 ∧ -720 ≤ signed16 (field body 4 2) ∧
    signed16 (field body 4 2) ≤ 720 ∧ (Headcode.ofBytes body 6).wellFormed = true)) :
    editCopyPath body s = .refuse .outOfRange (field body 0 2) none := by
  refine if_pos ?_
  by_contra none
  simp only [not_or, Bool.not_eq_true', Bool.not_eq_false] at none
  obtain ⟨source, number, low, high, wellFormed⟩ := none
  exact out ⟨by omega, by omega, by omega, by omega, wellFormed⟩

variable (inRange : 1 ≤ field body 0 2 ∧ 1 ≤ field body 2 2 ∧ -720 ≤ signed16 (field body 4 2) ∧
  signed16 (field body 4 2) ≤ 720 ∧ (Headcode.ofBytes body 6).wellFormed = true)
include inRange

theorem copyPath_inRange : ¬ (field body 0 2 = 0 ∨ field body 2 2 = 0 ∨ signed16 (field body 4 2) < -720 ∨
    720 < signed16 (field body 4 2) ∨ (!(Headcode.ofBytes body 6).wellFormed) = true) := by
  obtain ⟨source, number, low, high, wellFormed⟩ := inRange
  rw [wellFormed]
  simp only [Bool.not_true, Bool.false_eq_true, or_false]
  omega

theorem editCopyPath_none (empty : s.path (field body 0 2) = none) :
    editCopyPath body s = .refuse .noSuch (field body 0 2) none := by
  rw [editCopyPath, if_neg (copyPath_inRange inRange), empty]

/-- The checks of a copy of a stored path, in the order of Table 5-6. -/
theorem editCopyPath_stored (stored : s.path (field body 0 2) = some p) : editCopyPath body s =
    if s.taken (field body 2 2) then .refuse .numberInUse (field body 2 2) none
    else if !s.allStored p.plans then .refuse .badObject (field body 0 2) none
    else if !(p.plans.all (shiftOk (signed16 (field body 4 2)))) then .refuse .outOfRange (field body 0 2) none
    else if s.storeFull 1 then .refuse .storeFull (field body 0 2) none
    else if s.tc.poolFree < p.points.length then .refuse .poolFull (field body 0 2) none
    else .accept (s.loadPath (field body 2 2) (Headcode.ofBytes body 6) p.day
      (p.plans.map (Plan.shift (signed16 (field body 4 2))))) .ok .none := by
  rw [editCopyPath, if_neg (copyPath_inRange inRange), stored]

end Copy

section Plans

variable {s : State} {p : PathRec} {delta : Int}

theorem State.allStored_iff : s.allStored p.plans = true ↔ ∀ x ∈ p.points,
    (∃ r b, s.object x.plan.berth = some r ∧ r.kind = .berth b) ∧
      ∀ c, x.plan.route = some c → ∃ r q, s.object c.point = some r ∧ r.kind = .point q := by
  simp only [State.allStored, PathRec.plans, List.all_map, List.all_eq_true, Function.comp_apply, State.namesStored_iff]

theorem PathRec.shiftsAll_iff : p.plans.all (shiftOk delta) = true ↔
    ∀ x ∈ p.points, 0 ≤ (x.plan.planned : Int) + delta ∧ (x.plan.planned : Int) + delta ≤ 3599 := by
  simp only [PathRec.plans, List.all_map, List.all_eq_true, Function.comp_apply, shiftOk_iff]

theorem PathRec.head?_plans {first : TimingPoint} (head : p.points.head? = some first) (f : Plan → Plan) :
    (p.plans.map f).head? = some (f first.plan) := by
  rw [PathRec.plans, List.map_map, List.head?_map, head]
  rfl

end Plans

/-- Settles O43: for each edit the checks follow in their order; accepted, exactly the plan fields it names are written, and
what is computed from them. -/
theorem planEditsChangeThePlan : Obligations.PlanEditsChangeThePlan := by
  unfold Obligations.PlanEditsChangeThePlan
  intro f s n number disturbed written activation early reached stored live shifts shifted
  subst number
  have isLive : ∀ p : PathRec, p.state.live = true ↔ live p := fun p => PathState.live_iff
  have isStored : ∀ x, s.namesStored x = true ↔ stored x := fun x => State.namesStored_iff
  have notYet : ∀ time, early time → s.timeDue time = false := fun time => State.not_timeDue
  have come : ∀ time, reached time → s.timeDue time = true := fun time both => State.timeDue_reached both.1 both.2
  refine ⟨?_, ?_, ?_⟩
  · intro admits index refused inRange
    refine ⟨fun out => State.exec_refused admits rfl (editAmendTimingPoint_out out) rfl, fun range empty =>
      State.exec_declined admits rfl (editAmendTimingPoint_none range empty) rfl, ?_⟩
    intro p plan range path read guarded ordered edits
    have checks := editAmendTimingPoint_stored range.2.1 range.2.2 path read
    have used : p.templateInUse = false → ¬ p.templateInUse = true := fun free => by simp [free]
    have dead : (!p.state.live) = true ↔ ¬ live p := not_eq_true_iff (isLive p)
    have isGuarded : (p.state.underWay && decide ((byteAt f.body 2).toNat < p.passed + 2)) = true ↔ guarded := by
      rw [Bool.and_eq_true, PathState.underWay_iff, decide_eq_true_iff]
    have unnamed : (!s.namesStored plan) = true ↔ ¬ stored plan := not_eq_true_iff (isStored plan)
    have unordered : (!p.keepsOrder index plan) = true ↔ ¬ ordered := not_eq_true_iff PathRec.keepsOrder_iff
    have editing : ∀ {e}, edits → stored plan → ordered →
        (if p.points.length ≤ (byteAt f.body 2).toNat then .refuse .outOfRange (field f.body 0 2) (some index)
          else .accept (s.amendPoint (field f.body 0 2) p index plan) .ok .none) = e → editAmendTimingPoint f.body s = e :=
      fun {e} ⟨free, isLive, unguarded⟩ named sorted tail =>
        checks.trans ((if_neg (used free)).trans ((if_neg (mt dead.mp (not_not.mpr isLive))).trans
          ((if_neg (mt isGuarded.mp unguarded)).trans ((if_neg (mt unnamed.mp (not_not.mpr named))).trans
            ((if_neg (mt unordered.mp (not_not.mpr sorted))).trans tail)))))
    refine ⟨fun inUse => ?_, fun free ended => ?_, fun free isLive isGuard => ?_, fun ⟨free, isLive, unguarded⟩ missing => ?_,
      fun ⟨free, isLive, unguarded⟩ named disorder => ?_, fun edit named sorted beyond => ?_, fun x edit named sorted there =>
      ?_⟩
    · exact State.exec_refused admits rfl (checks.trans (if_pos inUse)) rfl
    · exact State.exec_refused admits rfl (checks.trans ((if_neg (used free)).trans (if_pos (dead.mpr ended)))) rfl
    · exact State.exec_refused admits rfl (checks.trans ((if_neg (used free)).trans
        ((if_neg (mt dead.mp (not_not.mpr isLive))).trans (if_pos (isGuarded.mpr isGuard))))) rfl
    · exact State.exec_refused admits rfl (checks.trans ((if_neg (used free)).trans
        ((if_neg (mt dead.mp (not_not.mpr isLive))).trans ((if_neg (mt isGuarded.mp unguarded)).trans
          (if_pos (unnamed.mpr missing)))))) rfl
    · exact State.exec_refused admits rfl (checks.trans ((if_neg (used free)).trans
        ((if_neg (mt dead.mp (not_not.mpr isLive))).trans ((if_neg (mt isGuarded.mp unguarded)).trans
          ((if_neg (mt unnamed.mp (not_not.mpr named))).trans (if_pos (unordered.mpr disorder))))))) rfl
    · exact State.exec_refused admits rfl (editing edit named sorted
        (if_pos (List.getElem?_eq_none_iff.mp beyond))) rfl
    · intro amended recomputed
      have accepted : ∀ t, s.amendPoint (field f.body 0 2) p index plan = t →
          exec (.amendTimingPoint f) s = .next (t.withReply .amendTimingPoint f .ok .none).settle := fun t made =>
        State.exec_accepted admits rfl (editing edit named sorted ((if_neg (by
          have := (List.getElem?_eq_some_iff.mp there).1
          omega)).trans (by rw [made])))
      refine ⟨fun later => accepted _ (State.amendPoint_later there later), fun zero loaded soon => ?_, fun zero loaded due => ?_⟩
      · exact accepted _ ((State.amendPoint_first zero there loaded).trans (State.armIfDue_early _ (notYet _ soon)))
      · exact accepted _ ((State.amendPoint_first zero there loaded).trans (State.armIfDue_due _ loaded (come _ due)))
  · intro admits delta refused inRange
    refine ⟨fun out => State.exec_refused admits rfl (editShiftPath_out out) rfl, fun range empty =>
      State.exec_declined admits rfl (editShiftPath_none range empty) rfl, ?_⟩
    intro p range path points kept ordered edits
    have checks := editShiftPath_stored range path
    have used : p.templateInUse = false → ¬ p.templateInUse = true := fun free => by simp [free]
    have dead : (!p.state.live) = true ↔ ¬ live p := not_eq_true_iff (isLive p)
    have unordered : (!p.shiftKeepsOrder delta) = true ↔ ¬ ordered := not_eq_true_iff PathRec.shiftKeepsOrder_iff
    have beyond : (!((p.points.drop p.passed).all fun t => shiftOk delta t.plan)) = true ↔ ¬ kept :=
      not_eq_true_iff (by simp only [List.all_eq_true, shiftOk_iff]; rfl)
    have accepted : ∀ t, edits → ordered → kept → s.shiftPath (field f.body 0 2) p delta = t →
        exec (.shiftPath f) s = .next (t.withReply .shiftPath f .ok .none).settle :=
      fun t ⟨free, isLive⟩ sorted within made => State.exec_accepted admits rfl (checks.trans ((if_neg (used free)).trans
        ((if_neg (mt dead.mp (not_not.mpr isLive))).trans ((if_neg (mt unordered.mp (not_not.mpr sorted))).trans
          ((if_neg (mt beyond.mp (not_not.mpr within))).trans (congrArg (Edit.accept · .ok .none) made))))))
    refine ⟨fun inUse => ?_, fun free ended => ?_, fun ⟨free, isLive⟩ disorder => ?_,
      fun ⟨free, isLive⟩ sorted out => ?_, ?_, ?_⟩
    · exact State.exec_refused admits rfl (checks.trans (if_pos inUse)) rfl
    · exact State.exec_refused admits rfl (checks.trans ((if_neg (used free)).trans (if_pos (dead.mpr ended)))) rfl
    · exact State.exec_refused admits rfl (checks.trans ((if_neg (used free)).trans
        ((if_neg (mt dead.mp (not_not.mpr isLive))).trans (if_pos (unordered.mpr disorder))))) rfl
    · exact State.exec_refused admits rfl (checks.trans ((if_neg (used free)).trans
        ((if_neg (mt dead.mp (not_not.mpr isLive))).trans ((if_neg (mt unordered.mp (not_not.mpr sorted))).trans
          (if_pos (beyond.mpr out)))))) rfl
    · intro x edit loaded within first recomputed
      have sorted : ordered := fun i x y running => by rw [loaded] at running; exact absurd running (by simp)
      have made : s.shiftPath (field f.body 0 2) p delta =
          ((s.setPath (field f.body 0 2) recomputed).disturb).armIfDue (field f.body 0 2) :=
        State.shiftPath_loaded loaded first
      exact ⟨fun soon => accepted _ edit sorted within (made.trans (State.armIfDue_early _ (notYet _ soon))),
        fun due => accepted _ edit sorted within (made.trans (State.armIfDue_due _ loaded (come _ due)))⟩
    · intro x edit live sorted within next projected due again moved
      have made : s.shiftPath (field f.body 0 2) p delta = ((s.setPath (field f.body 0 2)
          { p with points := points, deadline := some ⟨due, .overdue⟩ }).disturb).renewOverdue (field f.body 0 2) :=
        State.shiftPath_live live next
      have isDue : ((s.setPath (field f.body 0 2)
          { p with points := points, deadline := some ⟨due, .overdue⟩ }).disturb).deadlineDue
            { p with points := points, deadline := some ⟨due, .overdue⟩ } = true ↔
          s.tc.service = .serving ∧ due ≤ (s.tb.stationUs / 1000 : Nat) := by
        rw [State.deadlineDue_iff]
        exact ⟨fun ⟨d, same, isServing, time⟩ => by cases same; exact ⟨isServing, time⟩, fun both => ⟨_, rfl, both⟩⟩
      refine ⟨fun not => accepted _ edit sorted within (made.trans ?_), fun ⟨active, isServing, time⟩ =>
        accepted _ edit sorted within (made.trans ?_)⟩
      · refine State.renewOverdue_ends (State.path_setPath_disturb _) fun ⟨active, both⟩ => not ⟨active, isDue.mp both⟩
      · have renewed := State.renewOverdue_again (State.path_setPath_disturb (s := s) (n := field f.body 0 2)
          { p with points := points, deadline := some ⟨due, .overdue⟩ }) active (isDue.mpr ⟨isServing, time⟩)
          (PathRec.due_of next)
        rw [State.setPath_disturb] at renewed
        exact renewed
  · intro admits m delta headcode reserved taken refused inRange
    refine ⟨fun out => State.exec_refused admits rfl (editCopyPath_out out) rfl, fun range empty =>
      State.exec_declined admits rfl (editCopyPath_none range empty) rfl, ?_⟩
    intro p range path allStored kept roomy
    have checks := editCopyPath_stored range path
    have unnamed : (!s.allStored p.plans) = true ↔ ¬ allStored := not_eq_true_iff State.allStored_iff
    have beyond : (!(p.plans.all (shiftOk delta))) = true ↔ ¬ kept := not_eq_true_iff PathRec.shiftsAll_iff
    have full : s.storeFull 1 = true ↔ ¬ roomy := State.storeFull_iff.trans (by
      rw [show roomy = (s.tc.paths.length + reserved + 1 ≤ 1024) from rfl, not_le] <;> rfl)
    have free : ¬ taken → ¬ s.taken (field f.body 2 2) = true := mt State.taken_iff.mp
    refine ⟨fun isTaken => ?_, fun isFree missing => ?_, fun isFree named out => ?_, fun isFree named within crowded => ?_,
      fun isFree named within isRoomy short => ?_, ?_⟩
    · exact State.exec_refused admits rfl (checks.trans (if_pos (State.taken_iff.mpr isTaken))) rfl
    · exact State.exec_refused admits rfl (checks.trans ((if_neg (free isFree)).trans (if_pos (unnamed.mpr missing)))) rfl
    · exact State.exec_refused admits rfl (checks.trans ((if_neg (free isFree)).trans
        ((if_neg (mt unnamed.mp (not_not.mpr named))).trans (if_pos (beyond.mpr out))))) rfl
    · exact State.exec_refused admits rfl (checks.trans ((if_neg (free isFree)).trans
        ((if_neg (mt unnamed.mp (not_not.mpr named))).trans ((if_neg (mt beyond.mp (not_not.mpr within))).trans
          (if_pos (full.mpr crowded)))))) rfl
    · exact State.exec_refused admits rfl (checks.trans ((if_neg (free isFree)).trans
        ((if_neg (mt unnamed.mp (not_not.mpr named))).trans ((if_neg (mt beyond.mp (not_not.mpr within))).trans
          ((if_neg (mt full.mp (not_not.mpr isRoomy))).trans (if_pos short)))))) rfl
    · intro first head isFree named within isRoomy enough time copy copied
      have accepted : ∀ t, s.loadPath m headcode p.day (p.plans.map (Plan.shift delta)) = t →
          exec (.copyPath f) s = .next (t.withReply .copyPath f .ok .none).settle := fun t made =>
        State.exec_accepted admits rfl (checks.trans ((if_neg (free isFree)).trans
          ((if_neg (mt unnamed.mp (not_not.mpr named))).trans ((if_neg (mt beyond.mp (not_not.mpr within))).trans
            ((if_neg (mt full.mp (not_not.mpr isRoomy))).trans ((if_neg (not_lt.mpr enough)).trans
              (congrArg (Edit.accept · .ok .none) made)))))))
      have headed := PathRec.head?_plans head (Plan.shift delta)
      have recorded : s.newPath headcode p.day (p.plans.map (Plan.shift delta)) = copy := by
        rw [State.newPath_eq headed, PathRec.plans, List.map_map, List.map_map]
        rfl
      have stores : (s.storePath m (s.newPath headcode p.day (p.plans.map (Plan.shift delta)))).disturb = copied := by
        rw [recorded]
        have length : copy.points.length = p.points.length := List.length_map ..
        rw [State.storePath, length]
        rfl
      refine ⟨fun soon => accepted _ ((State.loadPath_early headed (notYet _ soon)).trans stores), fun due => accepted _ ?_⟩
      rw [State.loadPath_due headed (come _ due), stores, recorded]

end Sys2Proof.Machine
end

section
/-! PROOFS. REPEAT PATH and the creation of its copies (R98 to R102): O44. -/

namespace Sys2Proof.Machine

/-! ### The serial digits of a headcode (R99) -/

theorem digitOf_eq_some {c : Byte} {k : Nat} : digitOf c = some k ↔ k < 10 ∧ c = BitVec.ofNat 8 (0x30 + k) := by
  unfold digitOf
  constructor
  · intro digit
    split at digit
    · next range =>
      cases digit
      refine ⟨by omega, BitVec.eq_of_toNat_eq ?_⟩
      rw [BitVec.toNat_ofNat]
      omega
    · exact absurd digit (by simp)
  · rintro ⟨small, rfl⟩
    rw [BitVec.toNat_ofNat, if_pos (by omega)]
    exact congrArg some (by omega)

theorem Headcode.serial_digits {h : Headcode} (a b : Fin 10) (tens : h.c2 = BitVec.ofNat 8 (0x30 + a))
    (units : h.c3 = BitVec.ofNat 8 (0x30 + b)) : h.serial = some (a.val * 10 + b.val) := by
  rw [Headcode.serial, digitOf_eq_some.mpr ⟨a.isLt, tens⟩, digitOf_eq_some.mpr ⟨b.isLt, units⟩]

/-- A headcode has a serial number when its last two characters are digits. -/
theorem Headcode.serial_eq_none {h : Headcode} : h.serial = none ↔
    ¬ ∃ a b : Fin 10, h.c2 = BitVec.ofNat 8 (0x30 + a) ∧ h.c3 = BitVec.ofNat 8 (0x30 + b) := by
  constructor
  · rintro none ⟨a, b, tens, units⟩
    rw [Headcode.serial_digits a b tens units] at none
    exact absurd none (by simp)
  · intro other
    unfold Headcode.serial
    split
    · next a b tens units =>
      obtain ⟨smallTens, tens⟩ := digitOf_eq_some.mp tens
      obtain ⟨smallUnits, units⟩ := digitOf_eq_some.mp units
      exact absurd ⟨⟨a, smallTens⟩, ⟨b, smallUnits⟩, tens, units⟩ other
    · rfl

theorem copyHeadcode_same (h : Headcode) (i : Nat) : copyHeadcode h 0 i = h := if_pos rfl

theorem copyHeadcode_digits {h : Headcode} {step : Nat} (i : Nat) (a b : Fin 10) (steps : step ≠ 0)
    (tens : h.c2 = BitVec.ofNat 8 (0x30 + a)) (units : h.c3 = BitVec.ofNat 8 (0x30 + b)) :
    copyHeadcode h step i = h.withSerial ((a.val * 10 + b.val + i * step) % 100) := by
  rw [copyHeadcode, if_neg steps, Headcode.serial_digits a b tens units]

/-! ### The numbers a series needs (R99) -/

section Taken

variable {s : State} {first count i : Nat}

theorem State.firstTaken_eq_none : s.firstTaken first count = none ↔ ∀ i < count, ¬ s.taken (first + i) = true := by
  simp [State.firstTaken]

/-- The lowest number that is taken. -/
theorem State.firstTaken_eq (within : i < count) (taken : s.taken (first + i) = true)
    (before : ∀ k < i, ¬ s.taken (first + k) = true) : s.firstTaken first count = some (first + i) := by
  rw [State.firstTaken, List.find?_map]
  refine congrArg (Option.map (first + ·)) (a₂ := some i) ?_
  rw [List.find?_range_eq_some]
  exact ⟨taken, List.mem_range.mpr within, fun k small => by simpa using before k small⟩

end Taken

/-! ### The checks of REPEAT PATH (R98) -/

section Repeat

variable {s : State} {body : List Byte} {tag : Byte} {p : PathRec}

/-- The fields of REPEAT PATH lie within their ranges (Table 11-3). -/
def repeatInRange (body : List Byte) : Prop :=
  1 ≤ field body 0 2 ∧ 1 ≤ field body 2 2 ∧ 1 ≤ (byteAt body 4).toNat ∧ (byteAt body 4).toNat ≤ 64 ∧
    1 ≤ field body 5 2 ∧ field body 5 2 ≤ 720 ∧ (byteAt body 7).toNat ≤ 99 ∧
    field body 2 2 + (byteAt body 4).toNat - 1 ≤ 65535

theorem editRepeatPath_out (out : ¬ repeatInRange body) :
    editRepeatPath tag body s = .refuse .outOfRange (field body 0 2) none := by
  unfold repeatInRange at out
  exact if_pos (by omega)

theorem not_repeatOut (inRange : repeatInRange body) : ¬ (field body 0 2 = 0 ∨ field body 2 2 = 0 ∨
    (byteAt body 4).toNat = 0 ∨ 64 < (byteAt body 4).toNat ∨ field body 5 2 = 0 ∨ 720 < field body 5 2 ∨
    99 < (byteAt body 7).toNat ∨ 65536 < field body 2 2 + (byteAt body 4).toNat) := by
  unfold repeatInRange at inRange
  omega

theorem editRepeatPath_none (inRange : repeatInRange body) (empty : s.path (field body 0 2) = none) :
    editRepeatPath tag body s = .refuse .noSuch (field body 0 2) none := by
  rw [editRepeatPath, if_neg (not_repeatOut inRange), empty]

theorem editRepeatPath_taken {n : Nat} (inRange : repeatInRange body) (stored : s.path (field body 0 2) = some p)
    (taken : s.firstTaken (field body 2 2) (byteAt body 4).toNat = some n) :
    editRepeatPath tag body s = .refuse .numberInUse n none := by
  rw [editRepeatPath, if_neg (not_repeatOut inRange), stored]
  dsimp only
  rw [taken]

/-- The checks of a series whose numbers are free, in the order of Table 5-6. -/
theorem editRepeatPath_free (inRange : repeatInRange body) (stored : s.path (field body 0 2) = some p)
    (free : s.firstTaken (field body 2 2) (byteAt body 4).toNat = none) : editRepeatPath tag body s =
      if !s.allStored p.plans then .refuse .badObject (field body 0 2) none
      else if 0 < (byteAt body 7).toNat ∧ p.headcode.serial = none then .refuse .badHeadcode (field body 0 2) none
      else if !(p.plans.all (shiftOk ((byteAt body 4).toNat * field body 5 2))) then
        .refuse .outOfRange (field body 0 2) none
      else if s.storeFull (byteAt body 4).toNat then .refuse .storeFull (field body 0 2) none
      else if s.tc.poolFree < (byteAt body 4).toNat * p.points.length then .refuse .poolFull (field body 0 2) none
      else .accept (s.beginRepeat tag
          ⟨field body 0 2, field body 2 2, (byteAt body 4).toNat, field body 5 2, (byteAt body 7).toNat, 1⟩ p) .started
        (.started s.sl.slot.displaced) := by
  rw [editRepeatPath, if_neg (not_repeatOut inRange), stored]
  dsimp only
  rw [free]

/-- A shift of every planned time by whole half-minutes into the future stays in range when the last one does. -/
theorem PathRec.shiftsAll_nat {k : Nat} :
    p.plans.all (shiftOk (k : Nat)) = true ↔ ∀ x ∈ p.points, x.plan.planned + k ≤ 3599 := by
  rw [PathRec.shiftsAll_iff]
  exact forall₂_congr fun x _ => by omega

theorem Slot.displaced_eq (x : Slot) : x.displaced = match x with
    | .done c => if c.unread then some c else none
    | .empty => none
    | .inFlight _ _ _ => none := by
  cases x <;> rfl

end Repeat

/-! ### The creation of a copy (R100, R101) -/

section Create

variable {s : State} {op : RepeatOp} {p : PathRec} {n : Nat} {first : TimingPoint} {rest : List TimingPoint}

theorem Plan.shift_nat (k : Nat) (x : Plan) : x.shift (k : Nat) = { x with planned := x.planned + k } := by
  rw [Plan.shift, shifted, ← Nat.cast_add, Int.toNat_natCast]

/-- Copy i of a series: the template's plan, shifted and renumbered (R99). -/
theorem State.copyOf_eq (points : p.points = first :: rest) : s.copyOf op p =
    ⟨copyHeadcode p.headcode op.step op.next, p.day, .loaded,
      s.activationTime p.day { first.plan with planned := first.plan.planned + op.next * op.interval },
      p.points.map fun x => ⟨{ x.plan with planned := x.plan.planned + op.next * op.interval }, none⟩,
      0, 0, none, none, none, [], false, false⟩ := by
  have shifts : ∀ x : Plan, x.shift (op.next * op.interval) =
      { x with planned := x.planned + op.next * op.interval } := fun x => by
    rw [← Nat.cast_mul]
    exact Plan.shift_nat _ x
  have headed := PathRec.head?_plans (p := p) (by rw [points]; rfl) (Plan.shift (op.next * op.interval))
  rw [State.copyOf, State.newPath_eq headed, shifts, PathRec.plans, List.map_map, List.map_map]
  simp only [Function.comp_def, shifts]

theorem State.path_copyStored {next : Option RepeatOp} :
    (s.copyStored op p next).path (op.first + (op.next - 1)) = some (s.copyOf op p) := Store.get_set_self ..

/-- The template stands beside its copy. -/
theorem State.path_copyStored_ne {next : Option RepeatOp} (other : op.first + (op.next - 1) ≠ n) :
    (s.copyStored op p next).path n = s.path n := Store.get_set_ne _ _ other

theorem State.exec_repeatCopyCreation (held : s.held = false) (running : s.tc.repeatOp = some op)
    (stored : s.path op.template = some p) : exec .repeatCopyCreation s =
      .next (if op.next < op.count then s.storeCopy op p else (s.storeCopy op p).endRepeat op).settle := by
  show (s.whenRunning State.createCopy).answer = _
  rw [State.whenRunning_of _ held, State.createCopy, running]
  dsimp only
  rw [stored]
  rfl

/-- The end of a series whose template is kept (R101). -/
theorem State.endRepeat_kept {kind : LongOp} {tag : Byte} {accepted : Date} (stored : s.path op.template = some p)
    (kept : p.retireMarked = false) (slot : s.sl.slot = .inFlight kind tag accepted) : s.endRepeat op = { s with
      tc := { s.tc with paths := s.tc.paths.set op.template { p with templateInUse := false }, repeatOp := none }
      sl := { s.sl with slot := .done ⟨kind, tag, accepted, s.now, .ok, .copies op.count, true⟩ } } := by
  have released : ({ s with tc := { s.tc with repeatOp := none } } : State).releaseTemplate op.template =
      ({ s with tc := { s.tc with repeatOp := none } } : State).setPath op.template { p with templateInUse := false } := by
    rw [State.releaseTemplate, show ({ s with tc := { s.tc with repeatOp := none } } : State).path op.template = some p
      from stored]
    exact if_neg (by simp [kept])
  rw [State.endRepeat, released, State.slotCompletes,
    show (({ s with tc := { s.tc with repeatOp := none } } : State).setPath op.template
      { p with templateInUse := false }).sl.slot = .inFlight kind tag accepted from slot]
  rfl

/-- The end of a series whose template was marked for retirement (R97, R101). -/
theorem State.endRepeat_retired {kind : LongOp} {tag : Byte} {accepted : Date} (stored : s.path op.template = some p)
    (retired : p.retireMarked = true) (slot : s.sl.slot = .inFlight kind tag accepted) : s.endRepeat op = { s with
      tc := { s.tc with
        paths := s.tc.paths.erase op.template
        poolFree := s.tc.poolFree + p.points.length
        digest := s.tc.digest.map fun d => { d with disturbed := true }
        repeatOp := none }
      watch := s.watch.map (WatchSlot.emptied (.path op.template))
      sl := { s.sl with slot := .done ⟨kind, tag, accepted, s.now, .ok, .copies op.count, true⟩ } } := by
  have released : ({ s with tc := { s.tc with repeatOp := none } } : State).releaseTemplate op.template =
      ({ s with tc := { s.tc with repeatOp := none } } : State).retirePath op.template p := by
    rw [State.releaseTemplate, show ({ s with tc := { s.tc with repeatOp := none } } : State).path op.template = some p
      from stored]
    exact if_pos retired
  rw [State.endRepeat, released, State.slotCompletes,
    show (({ s with tc := { s.tc with repeatOp := none } } : State).retirePath op.template p).sl.slot =
      .inFlight kind tag accepted from slot]
  rfl

/-- An activation leaves the time base and the slot as they are. -/
theorem State.activate_frame (s : State) (n : Nat) (p : PathRec) : s.activate n p = { s with
    tc := (s.activate n p).tc, objects := (s.activate n p).objects, watch := (s.activate n p).watch } := by
  rw [State.activate, State.armNext_eq]
  rfl

end Create

/-- Settles O44: the checks of a series in their order, the digits of a copy's headcode, and the creation of each copy, the
last of which ends the operation. -/
theorem repeatPathReservesAndCopies : Obligations.RepeatPathReservesAndCopies := by
  unfold Obligations.RepeatPathReservesAndCopies
  refine ⟨?_, ?_, ?_⟩
  · intro f s admits n first count interval step reserved taken refused inRange
    refine ⟨fun out => State.exec_refused admits rfl (editRepeatPath_out out) rfl, fun range empty =>
      State.exec_declined admits rfl (editRepeatPath_none range empty) rfl, ?_⟩
    intro p range path free stored digits kept roomy entries
    have isTaken : ∀ m, s.taken m = true ↔ taken m := fun m => State.taken_iff
    have checks : free → _ := fun isFree => editRepeatPath_free (tag := f.tag) range path
      (State.firstTaken_eq_none.mpr fun i within => mt (isTaken _).mp (isFree i within))
    have unnamed : (!s.allStored p.plans) = true ↔ ¬ stored := not_eq_true_iff State.allStored_iff
    have unnumbered : (0 < step ∧ p.headcode.serial = none) ↔ ¬ (step = 0 ∨ digits) := by
      rw [Headcode.serial_eq_none, not_or, Nat.pos_iff_ne_zero]
    have beyond : (!(p.plans.all (shiftOk (count * interval)))) = true ↔ ¬ kept := not_eq_true_iff (by
      rw [← Nat.cast_mul]
      exact PathRec.shiftsAll_nat)
    have full : s.storeFull count = true ↔ ¬ roomy := State.storeFull_iff.trans (by
      rw [show roomy = (s.tc.paths.length + reserved + count ≤ 1024) from rfl, not_le] <;> rfl)
    refine ⟨fun i within isOne before => ?_, fun isFree missing => ?_, fun isFree named steps nodigits => ?_,
      fun isFree named numbered out => ?_, fun isFree named numbered within crowded => ?_,
      fun isFree named numbered within isRoomy short => ?_, fun isFree named numbered within isRoomy enough => ?_⟩
    · exact State.exec_refused admits rfl (editRepeatPath_taken range path (State.firstTaken_eq within
        ((isTaken _).mpr isOne) fun k small => mt (isTaken _).mp (before k small))) rfl
    · exact State.exec_refused admits rfl ((checks isFree).trans (if_pos (unnamed.mpr missing))) rfl
    · exact State.exec_refused admits rfl ((checks isFree).trans ((if_neg (mt unnamed.mp (not_not.mpr named))).trans
        (if_pos (unnumbered.mpr (not_or.mpr ⟨steps, nodigits⟩))))) rfl
    · exact State.exec_refused admits rfl ((checks isFree).trans ((if_neg (mt unnamed.mp (not_not.mpr named))).trans
        ((if_neg (mt unnumbered.mp (not_not.mpr numbered))).trans (if_pos (beyond.mpr out))))) rfl
    · exact State.exec_refused admits rfl ((checks isFree).trans ((if_neg (mt unnamed.mp (not_not.mpr named))).trans
        ((if_neg (mt unnumbered.mp (not_not.mpr numbered))).trans ((if_neg (mt beyond.mp (not_not.mpr within))).trans
          (if_pos (full.mpr crowded)))))) rfl
    · exact State.exec_refused admits rfl ((checks isFree).trans ((if_neg (mt unnamed.mp (not_not.mpr named))).trans
        ((if_neg (mt unnumbered.mp (not_not.mpr numbered))).trans ((if_neg (mt beyond.mp (not_not.mpr within))).trans
          ((if_neg (mt full.mp (not_not.mpr isRoomy))).trans (if_pos short)))))) rfl
    · refine State.exec_accepted admits rfl ((checks isFree).trans ((if_neg (mt unnamed.mp (not_not.mpr named))).trans
        ((if_neg (mt unnumbered.mp (not_not.mpr numbered))).trans ((if_neg (mt beyond.mp (not_not.mpr within))).trans
          ((if_neg (mt full.mp (not_not.mpr isRoomy))).trans ((if_neg (not_lt.mpr enough)).trans ?_))))))
      rw [Slot.displaced_eq]
      rfl
  · intro h step i
    refine ⟨fun zero => by rw [zero]; exact copyHeadcode_same h i, ?_⟩
    intro a b steps tens units serial
    rw [copyHeadcode_digits i a b steps tens units, mul_comm a.val 10]
    rfl
  · intro s p first rest op held running stored points other shifted time copy made created
    have creates := State.exec_repeatCopyCreation held running stored
    have copied : s.copyOf op p = copy := State.copyOf_eq points
    have makes : s.copyStored op p (some { op with next := op.next + 1 }) = made := by
      rw [State.copyStored, copied]
      rfl
    have placed : made.path (op.first + (op.next - 1)) = some copy := Store.get_set_self ..
    have beside : made.path op.template = some p := (Store.get_set_ne _ _ other).trans stored
    have stores : s.storeCopy op p = made.armIfDue (op.first + (op.next - 1)) := by rw [State.storeCopy_eq, makes]
    have early : s.tc.service = .suspended ∨ s.tb.stationUs / 1000 < time → s.storeCopy op p = made := fun soon => by
      rw [stores, State.armIfDue_of placed, if_neg]
      exact fun both => absurd ((State.not_timeDue (s := made) (time := time) soon).symm.trans both.2) (by simp)
    have due : s.tc.service = .serving → time ≤ s.tb.stationUs / 1000 →
        s.storeCopy op p = made.activate (op.first + (op.next - 1)) copy := fun serving reached => by
      rw [stores, State.armIfDue_of placed, if_pos ⟨rfl, State.timeDue_reached (s := made) serving reached⟩]
    refine ⟨fun more => ⟨fun soon => ?_, fun serving reached => ?_⟩, ?_⟩
    · rw [creates, if_pos more, early soon]
      rfl
    · rw [creates, if_pos more, due serving reached]
      rfl
    · intro kind tag accepted last slot completed
      have ends : exec .repeatCopyCreation s = .next ((s.storeCopy op p).endRepeat op).settle := by
        rw [creates, if_neg (not_lt.mpr last)]
      have armed : (made.activate (op.first + (op.next - 1)) copy).path op.template = some p := by
        rw [State.path, State.activate_tc]
        exact (Store.get_set_ne _ _ other).trans beside
      have kept : (made.activate (op.first + (op.next - 1)) copy).sl = s.sl ∧
          (made.activate (op.first + (op.next - 1)) copy).now = s.now := by
        rw [State.activate_frame]
        exact ⟨rfl, rfl⟩
      refine ⟨fun isKept => ⟨fun soon => ?_, fun serving reached => ?_⟩,
        fun isRetired => ⟨fun soon => ?_, fun serving reached => ?_⟩⟩
      · rw [ends, early soon, State.endRepeat_kept beside isKept slot]
        rfl
      · rw [ends, due serving reached, State.endRepeat_kept armed isKept (by rw [kept.1]; exact slot), kept.1, kept.2]
        rfl
      · rw [ends, early soon, State.endRepeat_retired beside isRetired slot]
        rfl
      · rw [ends, due serving reached, State.endRepeat_retired armed isRetired (by rw [kept.1]; exact slot), kept.1, kept.2]
        rfl

end Sys2Proof.Machine
end

section
/-! PROOFS. ARM PATH, CANCEL PATH and RETIRE PATH, and the plan digest (R94 to R96, R106, R107, R114 to R116): O45, O46. -/

namespace Sys2Proof.Machine

/-! ### Expectations (R114, R115) -/

section Expect

variable {s : State} {n berth index : Nat} {r : ObjectRec} {p : PathRec} {e : Expectation} {t a b : TimingPoint}

theorem State.expect_none (empty : s.object berth = none) : s.expect berth e = s := by
  rw [State.expect, State.onObject, empty]

theorem State.expect_some (stored : s.object berth = some r) :
    s.expect berth e = s.setObject berth (r.onQueue fun q => q ++ [e]) := by
  rw [State.expect, State.onObject_of stored]

theorem ObjectRec.onQueue_eq (f : List Expectation → List Expectation) (r : ObjectRec) : r.onQueue f =
    match r.kind with
    | .berth b => { r with kind := .berth { b with queue := f b.queue } }
    | .point _ => r
    | .signal _ => r := by
  unfold ObjectRec.onQueue
  cases r.kind <;> rfl

theorem State.armPoint_of (there : p.points[index]? = some t) :
    s.armPoint n p index = s.expect t.plan.berth ⟨n, index⟩ := by
  rw [State.armPoint, PathRec.point, there]

/-- An activation gives the first deadline and arms the next two points, the lower index first (R115, R116). -/
theorem State.activate_of (next : p.points[p.passed]? = some a) (second : p.points[p.passed + 1]? = some b) :
    s.activate n p = ((((s.setPath n { p with
      state := .armed
      deadline := some ⟨p.projectedAt a.plan + (a.plan.late : Int) * 1000, .overdue⟩ }).report (.path n)).expect a.plan.berth
        ⟨n, p.passed⟩).expect b.plan.berth ⟨n, p.passed + 1⟩) := by
  rw [State.activate, State.armNext, PathRec.overdueDeadline_of next]
  dsimp only
  rw [State.armPoint_of (p := { p with
    state := .armed, deadline := some ⟨p.projectedAt a.plan + (a.plan.late : Int) * 1000, .overdue⟩ }) next,
    State.armPoint_of (p := { p with
    state := .armed, deadline := some ⟨p.projectedAt a.plan + (a.plan.late : Int) * 1000, .overdue⟩ }) second]

end Expect

/-! ### The requests on one path (R94 to R96) -/

section Requests

variable {s : State} {body : List Byte} {p : PathRec}

theorem PathState.not_live_iff {st : PathState} : st.live = false ↔ st ∈ [PathState.complete, .cancelled, .lost] := by
  cases st <;> simp [PathState.live]

theorem PathState.live_iff_mem {st : PathState} : st.live = true ↔ st ∈ [PathState.loaded, .armed, .running] := by
  cases st <;> simp [PathState.live]

theorem PathState.underWay_iff_mem {st : PathState} : st.underWay = true ↔ st ∈ [PathState.armed, .running] := by
  cases st <;> simp [PathState.underWay]

theorem PathState.not_underWay_iff {st : PathState} :
    st.underWay = false ↔ st ∈ [PathState.loaded, .complete, .cancelled, .lost] := by
  cases st <;> simp [PathState.underWay]

theorem editArmPath_none (empty : s.path (field body 0 2) = none) :
    editArmPath body s = .refuse .noSuch (field body 0 2) none := by
  rw [editArmPath, empty]

theorem editArmPath_stored (stored : s.path (field body 0 2) = some p) : editArmPath body s =
    if p.state = .loaded then .accept (s.activate (field body 0 2) p) .ok .none
    else .refuse .stateConflict (field body 0 2) none := by
  rw [editArmPath, stored]

theorem editCancelPath_none (empty : s.path (field body 0 2) = none) :
    editCancelPath body s = .refuse .noSuch (field body 0 2) none := by
  rw [editCancelPath, empty]

theorem editCancelPath_stored (stored : s.path (field body 0 2) = some p) : editCancelPath body s =
    if p.templateInUse then .refuse .inUse (field body 0 2) none
    else if p.state.live then .accept (s.endPath (field body 0 2) p .cancelled s.now) .ok .none
    else .refuse .stateConflict (field body 0 2) none := by
  rw [editCancelPath, stored]

theorem editRetirePath_none (empty : s.path (field body 0 2) = none) :
    editRetirePath body s = .refuse .noSuch (field body 0 2) none := by
  rw [editRetirePath, empty]

theorem editRetirePath_stored (stored : s.path (field body 0 2) = some p) : editRetirePath body s =
    if p.templateInUse then .refuse .inUse (field body 0 2) none
    else if p.state.underWay then .refuse .stateConflict (field body 0 2) none
    else .accept (s.retirePath (field body 0 2) p) .ok .none := by
  rw [editRetirePath, stored]

end Requests

/-- Settles O45: each request by the path's state and template mark; an expectation stands at the tail of its queue. -/
theorem armCancelRetirePath : Obligations.ArmCancelRetirePath := by
  unfold Obligations.ArmCancelRetirePath
  refine ⟨fun s berth e => ⟨State.expect_none, fun r stored => ?_⟩, fun s n => ?_, fun s n p a b next second => ?_, ?_⟩
  · rw [State.expect_some stored, ObjectRec.onQueue_eq]
    rfl
  · have each : ∀ x : Nat × ObjectRec, (x.1, x.2.onQueue fun q => q.filter fun e => e.path ≠ n) = (x.1, _) := fun x =>
      congrArg (Prod.mk x.1) (x.2.onQueue_eq _)
    rw [State.disarm, Store.mapVals, funext each] <;> rfl
  · intro due
    exact State.activate_of next second
  · intro f s n number now disturbed retire
    subst number
    refine ⟨fun empty => ⟨fun admits => ?_, fun admits => ?_, fun admits => ?_⟩, fun p stored => ⟨fun admits => ?_,
      fun admits => ?_, fun admits => ?_⟩⟩
    · exact State.exec_declined admits rfl (editArmPath_none empty) rfl
    · exact State.exec_declined admits rfl (editCancelPath_none empty) rfl
    · exact State.exec_declined admits rfl (editRetirePath_none empty) rfl
    · refine ⟨fun other => State.exec_refused admits rfl ((editArmPath_stored stored).trans (if_neg other)) rfl, ?_⟩
      intro a b loaded next second due
      exact State.exec_accepted admits rfl ((editArmPath_stored stored).trans ((if_pos loaded).trans
        (congrArg (Edit.accept · .ok .none) (State.activate_of next second))))
    · have checks := editCancelPath_stored stored
      refine ⟨fun used => State.exec_refused admits rfl (checks.trans (if_pos used)) rfl, fun free ended => ?_,
        fun free live => ?_⟩
      · exact State.exec_refused admits rfl (checks.trans ((if_neg (by simp [free])).trans
          (if_neg (by rw [PathState.not_live_iff.mpr ended]; simp)))) rfl
      · exact State.exec_accepted admits rfl (checks.trans ((if_neg (by simp [free])).trans
          (if_pos (PathState.live_iff_mem.mpr live))))
    · have checks := editRetirePath_stored stored
      refine ⟨fun used => State.exec_refused admits rfl (checks.trans (if_pos used)) rfl, fun free underWay => ?_,
        fun free resting => ?_⟩
      · exact State.exec_refused admits rfl (checks.trans ((if_neg (by simp [free])).trans
          (if_pos (PathState.underWay_iff_mem.mpr underWay)))) rfl
      · exact State.exec_accepted admits rfl (checks.trans ((if_neg (by simp [free])).trans
          (if_neg (by rw [PathState.not_underWay_iff.mpr resting]; simp))))

/-! ### The plan digest (R106, R107) -/

section Digest

variable {s : State} {d : DigestWalk} {n : Nat} {p : PathRec}

/-- With no path above its position the walk is over. -/
theorem State.nextToWalk_none {position : Nat} (all : ∀ e ∈ s.tc.paths, e.1 ≤ position) : s.nextToWalk position = none := by
  rw [State.nextToWalk, List.find?_eq_none]
  exact fun e mem => by simpa using all e mem

/-- The first path above the position is the next. -/
theorem State.nextToWalk_first {position : Nat} {before after : List (Nat × PathRec)}
    (paths : s.tc.paths = before ++ (n, p) :: after) (passed : ∀ e ∈ before, e.1 ≤ position) (above : position < n) :
    s.nextToWalk position = some (n, p) := by
  rw [State.nextToWalk, paths, List.find?_append, List.find?_eq_none.mpr fun e mem => by simpa using passed e mem,
    Option.none_or, List.find?_cons_of_pos (by simpa using above)]

/-- A path above the position is left to walk. -/
theorem State.nextToWalk_some {position : Nat} {e : Nat × PathRec} (mem : e ∈ s.tc.paths) (above : position < e.1) :
    ∃ next, s.nextToWalk position = some next := by
  rw [← Option.isSome_iff_exists, State.nextToWalk, List.find?_isSome]
  exact ⟨e, mem, by simpa using above⟩

/-- A walk with paths left goes on. -/
theorem State.digestComplete_more {next : Nat × PathRec} (left : s.nextToWalk d.position = some next) :
    s.digestComplete d = { s with tc := { s.tc with digest := some d } } := by
  rw [State.digestComplete, left]
  rfl

/-- A walk with none left completes the slot (R107). -/
theorem State.digestComplete_last {kind : LongOp} {tag : Byte} {accepted : Date} (none : s.nextToWalk d.position = .none)
    (slot : s.sl.slot = .inFlight kind tag accepted) : s.digestComplete d = { s with
      tc := { s.tc with digest := .none }
      sl := { s.sl with slot := .done ⟨kind, tag, accepted, s.now, .ok,
        .digest (crc32Final d.crc) d.paths d.points d.disturbed, true⟩ } } := by
  rw [State.digestComplete, none, State.slotCompletes]
  dsimp only
  rw [slot]
  rfl

theorem State.exec_digestWalkStep (held : s.held = false) : exec .digestWalkStep s = .next s.walkStep.settle := by
  show (s.whenRunning State.walkStep).answer = _
  rw [State.whenRunning_of _ held]
  rfl

end Digest

/-- Settles O46: the walk takes the first path above its position; with none left it completes the slot. -/
theorem digestWalksThePaths : Obligations.DigestWalksThePaths := by
  unfold Obligations.DigestWalksThePaths
  intro s now
  refine ⟨?_, ?_, ?_⟩
  · intro f admits displaced
    have shown : s.sl.slot.displaced = displaced := Slot.displaced_eq _
    have answers : ∀ t, (s.slotAccepts .digestPlan f.tag).digestComplete .initial = t →
        exec (.digestPlan f) s = .next (t.withReply .digestPlan f .started (.started displaced)).settle := fun t made =>
      State.exec_served admits rfl (by rw [serveDigestPlan, made, shown])
    refine ⟨fun empty => answers _ ?_, fun e mem low => answers _ ?_⟩
    · have none : (s.slotAccepts .digestPlan f.tag).nextToWalk DigestWalk.initial.position = none :=
        State.nextToWalk_none fun e mem => by
          rw [show (s.slotAccepts .digestPlan f.tag).tc.paths = [] from empty] at mem
          exact absurd mem (by simp)
      rw [State.digestComplete_last (tag := f.tag) none rfl]
      rfl
    · obtain ⟨next, left⟩ := State.nextToWalk_some (s := s.slotAccepts .digestPlan f.tag)
        (position := DigestWalk.initial.position) mem low
      rw [State.digestComplete_more left]
      rfl
  · intro d n p before after held digest paths passed above crc
    have steps : exec .digestWalkStep s = .next (s.digestComplete (d.over n p)).settle := by
      rw [State.exec_digestWalkStep held, State.walkStep, digest]
      dsimp only
      rw [State.nextToWalk_first paths passed above]
    refine ⟨fun e mem beyond => ?_, fun tag accepted last slot => ?_⟩
    · obtain ⟨next, left⟩ := State.nextToWalk_some (s := s) (position := (d.over n p).position)
        (by rw [paths]; simp [mem]) beyond
      rw [steps, State.digestComplete_more left]
      rfl
    · have none : s.nextToWalk (d.over n p).position = .none := State.nextToWalk_none fun e mem => by
        rw [paths, last] at mem
        obtain mem | mem := List.mem_append.mp mem
        · exact (passed e mem).trans above.le
        · rw [List.mem_singleton.mp mem]
          exact le_rfl
      rw [steps, State.digestComplete_last none slot]
      rfl
  · intro d tag accepted held digest slot all
    rw [State.exec_digestWalkStep held, State.walkStep, digest]
    dsimp only
    rw [State.nextToWalk_none all]
    dsimp only
    rw [State.digestComplete_last (State.nextToWalk_none all) slot]
    rfl

end Sys2Proof.Machine
end

section
/-! PROOFS. The two lists of the Timetable Comparator are served at their heads (R110 to R119, R97): O47. -/

namespace Sys2Proof.Machine

/-! ### The head of a list (R110) -/

/-- An entry comes no later than another: by time, then by path number (Table 6-1). -/
def ListEntry.first (e x : ListEntry) : Prop := e.time < x.time ∨ (e.time = x.time ∧ e.path ≤ x.path)

theorem ListEntry.before_iff {a b : ListEntry} :
    a.before b = true ↔ a.time < b.time ∨ (a.time = b.time ∧ a.path < b.path) := by
  simp [ListEntry.before]

/-- An entry that comes first is at the head of its list. -/
theorem head?_inOrder {e : ListEntry} {l : List ListEntry} (mem : e ∈ l) (first : ∀ x ∈ l, e.first x) :
    (inOrder l).head? = some e := by
  induction l with
  | nil => exact absurd mem (by simp)
  | cons a t ih =>
    show (insertEntry a (inOrder t)).head? = some e
    by_cases inTail : e ∈ t
    · have head := ih inTail fun x later => first x (List.mem_cons_of_mem _ later)
      obtain ⟨t', ordered⟩ := List.head?_eq_some_iff.mp head
      rw [ordered, insertEntry, if_neg]
      · rfl
      · rw [ListEntry.before_iff]
        have least : e.first a := first a (List.mem_cons_self ..)
        unfold ListEntry.first at least
        omega
    · obtain rfl : e = a := (List.mem_cons.mp mem).resolve_right inTail
      cases ordered : inOrder t with
      | nil => rfl
      | cons x t' =>
        have least : e.first x := first x (List.mem_cons_of_mem _ (mem_inOrder (by rw [ordered]; simp)))
        rw [insertEntry]
        split
        · rfl
        · next later =>
          rw [ListEntry.before_iff] at later
          unfold ListEntry.first at least
          have same : e = x := by
            obtain ⟨time, path⟩ := e
            obtain ⟨time', path'⟩ := x
            simp only [ListEntry.mk.injEq] at later least ⊢
            omega
          rw [same]
          rfl

section Lists

variable {s : State} {n : Nat} {p : PathRec}

/-- The LOADED path that comes first, once due, is the one an activation serves (R113, R116). -/
theorem State.dueActivation_first (stored : s.path n = some p) (loaded : p.state = .loaded)
    (due : s.timeDue p.activation = true) (first : ∀ e ∈ s.tc.paths, e.2.state = .loaded →
      p.activation < e.2.activation ∨ (p.activation = e.2.activation ∧ n ≤ e.1)) : s.dueActivation = some (n, p) := by
  have head : s.activationList.head? = some ⟨p.activation, n⟩ := by
    refine head?_inOrder (List.mem_filterMap.mpr ⟨(n, p), Store.mem_of_get stored, if_pos loaded⟩) fun x listed => ?_
    obtain ⟨e, mem, eq⟩ := List.mem_filterMap.mp listed
    split at eq
    · next isLoaded =>
      obtain rfl := Option.some.inj eq
      exact (first e mem isLoaded).imp Int.ofNat_lt.mpr (And.imp_left (congrArg Int.ofNat))
    · exact absurd eq (by simp)
  obtain ⟨rest, list⟩ := List.head?_eq_some_iff.mp head
  rw [State.dueActivation, list]
  dsimp only
  rw [if_pos due, stored]
  rfl

variable {d : Deadline}

/-- The path whose deadline comes first, once due, is the one a service serves at its stage (R113). -/
theorem State.dueDeadline_first (stored : s.path n = some p) (deadline : p.deadline = some d)
    (due : s.timeDue d.time = true) (first : ∀ e ∈ s.tc.paths, ∀ x, e.2.deadline = some x →
      d.time < x.time ∨ (d.time = x.time ∧ n ≤ e.1)) (stage : Stage) :
    s.dueDeadline stage = if d.stage = stage then some (n, p) else none := by
  have head : s.deadlineList.head? = some ⟨d.time, n⟩ := by
    refine head?_inOrder (List.mem_filterMap.mpr ⟨(n, p), Store.mem_of_get stored, by rw [deadline]; rfl⟩) fun x listed => ?_
    obtain ⟨e, mem, eq⟩ := List.mem_filterMap.mp listed
    obtain ⟨y, isDeadline, rfl⟩ := Option.map_eq_some_iff.mp eq
    exact first e mem y isDeadline
  obtain ⟨rest, list⟩ := List.head?_eq_some_iff.mp head
  rw [State.dueDeadline, list]
  dsimp only
  rw [stored]
  dsimp only
  rw [deadline, Option.map_some]
  simp only [due, true_and, Option.some.injEq]

end Lists

/-! ### The four services -/

section Services

variable {s : State} {n : Nat} {p : PathRec}

theorem State.exec_activation (held : s.held = false) : exec .activation s = .next s.serveActivation.settle := by
  show (s.whenRunning State.serveActivation).answer = _
  rw [State.whenRunning_of _ held]
  rfl

theorem State.exec_overdueService (held : s.held = false) : exec .overdueService s = .next s.serveOverdue.settle := by
  show (s.whenRunning State.serveOverdue).answer = _
  rw [State.whenRunning_of _ held]
  rfl

theorem State.exec_lostService (held : s.held = false) : exec .lostService s = .next s.serveLost.settle := by
  show (s.whenRunning State.serveLost).answer = _
  rw [State.whenRunning_of _ held]
  rfl

theorem State.exec_retireDeadlineExpiry (held : s.held = false) :
    exec .retireDeadlineExpiry s = .next s.serveRetire.settle := by
  show (s.whenRunning State.serveRetire).answer = _
  rw [State.whenRunning_of _ held]
  rfl

theorem State.serveActivation_none (none : s.dueActivation = none) : s.serveActivation = s := by
  rw [State.serveActivation, none]

theorem State.serveActivation_some (due : s.dueActivation = some (n, p)) : s.serveActivation = s.activate n p := by
  rw [State.serveActivation, due]

theorem State.serveOverdue_none (none : s.dueDeadline .overdue = none) : s.serveOverdue = s := by
  rw [State.serveOverdue, none]

theorem State.serveOverdue_some (due : s.dueDeadline .overdue = some (n, p)) : s.serveOverdue = s.overdue n p := by
  rw [State.serveOverdue, due]

theorem State.serveLost_none (none : s.dueDeadline .lost = none) : s.serveLost = s := by
  rw [State.serveLost, none]

theorem State.serveLost_some (due : s.dueDeadline .lost = some (n, p)) : s.serveLost = s.lose n p := by
  rw [State.serveLost, due]

theorem State.serveRetire_none (none : s.dueDeadline .retire = none) : s.serveRetire = s := by
  rw [State.serveRetire, none]

theorem State.serveRetire_some (due : s.dueDeadline .retire = some (n, p)) : s.serveRetire = s.autoRetire n p := by
  rw [State.serveRetire, due]

theorem State.overdue_of {t : TimingPoint} (next : p.points[p.passed]? = some t) : s.overdue n p =
    (s.setPath n { p with deadline := some (s.lostDeadline (p.projectedAt t.plan)) }).beginCause (.path n) .pathOverdue
      (.pathOverdue p.passed (p.projectedAt t.plan)) := by
  rw [State.overdue, PathRec.due_of next]

end Services

/-- Settles O47: the entry that comes first is at the head of its list; once due it is served at its stage. -/
theorem deadlinesAreServedInOrder : Obligations.DeadlinesAreServedInOrder := by
  unfold Obligations.DeadlinesAreServedInOrder
  constructor
  · intro s held
    refine ⟨fun early => ?_, fun early => ⟨?_, ?_, ?_⟩⟩
    · rw [State.exec_activation held, State.serveActivation_none (State.dueActivation_none early)]
    · rw [State.exec_overdueService held, State.serveOverdue_none (State.dueDeadline_none _ early)]
    · rw [State.exec_lostService held, State.serveLost_none (State.dueDeadline_none _ early)]
    · rw [State.exec_retireDeadlineExpiry held, State.serveRetire_none (State.dueDeadline_none _ early)]
  · intro s n p held serving stored ms now disturbed retire first
    have heads : ∀ d, first d → ∀ stage, s.dueDeadline stage = if d.stage = stage then some (n, p) else none :=
      fun d ⟨deadline, reached, least⟩ => State.dueDeadline_first stored deadline (State.timeDue_iff.mpr ⟨serving, reached⟩)
        least
    refine ⟨?_, ?_, fun d isFirst stage => ?_, fun d isFirst => ⟨fun other => ?_, fun other => ?_, fun other => ?_⟩,
      fun d isFirst stage => ⟨fun used => ?_, fun free => ?_⟩⟩
    · intro a b loaded reached next second least due
      rw [State.exec_activation held, State.serveActivation_some (State.dueActivation_first stored loaded
        (State.timeDue_reached serving reached) least), State.activate_of next second]
      rfl
    · intro d a isFirst stage next projected
      rw [State.exec_overdueService held, State.serveOverdue_some ((heads d isFirst _).trans (if_pos stage)),
        State.overdue_of next]
      rfl
    · rw [State.exec_lostService held, State.serveLost_some ((heads d isFirst _).trans (if_pos stage))]
      rfl
    · rw [State.exec_overdueService held, State.serveOverdue_none ((heads d isFirst _).trans (if_neg other))]
    · rw [State.exec_lostService held, State.serveLost_none ((heads d isFirst _).trans (if_neg other))]
    · rw [State.exec_retireDeadlineExpiry held, State.serveRetire_none ((heads d isFirst _).trans (if_neg other))]
    · rw [State.exec_retireDeadlineExpiry held, State.serveRetire_some ((heads d isFirst _).trans (if_pos stage)),
        State.autoRetire, if_pos used]
    · rw [State.exec_retireDeadlineExpiry held, State.serveRetire_some ((heads d isFirst _).trans (if_pos stage)),
        State.autoRetire, if_neg (by simp [free])]
      rfl

end Sys2Proof.Machine
end

section
/-! PROOFS. A berth event (R122 to R131): its match, what the pass writes in its path, and how the path moves on: O48. -/

namespace Sys2Proof.Machine

/-! ### One path written and reported -/

/-- A path is written and reported, the berths' queues as given. -/
def State.pathReported (s : State) (n : Nat) (q : PathRec) (objects : Store ObjectRec) : State :=
  { s with
    objects := objects
    tc := { s.tc with paths := s.tc.paths.set n q }
    watch := s.watch.map (WatchSlot.reported (.path n)) }

section Reported

variable {s : State} {n : Nat} {q q' : PathRec} {objects : Store ObjectRec}

theorem State.path_pathReported : (s.pathReported n q objects).path n = some q := Store.get_set_self ..

theorem State.setPath_pathReported :
    (s.pathReported n q objects).setPath n q' = s.pathReported n q' objects := by
  simp only [State.setPath, State.pathReported, Store.set_set]

theorem State.report_pathReported : (s.pathReported n q objects).report (.path n) = s.pathReported n q objects := by
  simp only [State.report, State.pathReported, State.reported_reported]

theorem State.setConds_pathReported (cs : CondSet) :
    (s.pathReported n q objects).setConds (.path n) cs = s.pathReported n { q with conds := cs } objects := by
  rw [State.setConds_path _ State.path_pathReported, State.setPath_pathReported, State.report_pathReported]

theorem State.condsOf_pathReported : (s.pathReported n q objects).condsOf (.path n) = q.conds :=
  State.condsOf_path _ State.path_pathReported

theorem State.raise_pathReported (c : Class) (d : Detail) : (s.pathReported n q objects).raiseMomentary (.path n) c d =
    s.pathReported n { q with conds := q.conds.raised c s.now s.elapsed d } objects := by
  rw [State.raiseMomentary, State.condsOf_pathReported, State.setConds_pathReported]
  rfl

theorem State.causeBegins_pathReported (c : Class) (d : Detail) : (s.pathReported n q objects).causeBegins (.path n) c d =
    s.pathReported n { q with conds := q.conds.begun c s.now s.elapsed d } objects := by
  rw [State.causeBegins, State.condsOf_pathReported, State.setConds_pathReported]
  rfl

/-- The end of a cause that is not active changes nothing. -/
theorem State.endCause_pathReported (c : Class) : (s.pathReported n q objects).endCause (.path n) c =
    s.pathReported n { q with conds := if q.conds.active c then q.conds.ended c else q.conds } objects := by
  rw [State.endCause, State.causeActive, State.condsOf_pathReported, State.setConds_pathReported]
  split <;> rfl

/-- The state of a pass in progress: its path is written, and reported or not. -/
def State.PathHeld (s : State) (n : Nat) (q : PathRec) (t : State) : Prop :=
  t = s.setPath n q ∨ t = s.pathReported n q s.objects

variable {t : State}

theorem State.PathHeld.path (h : s.PathHeld n q t) : t.path n = some q := by
  obtain rfl | rfl := h
  · exact State.path_setPath_self ..
  · exact State.path_pathReported

theorem State.PathHeld.settings (h : s.PathHeld n q t) : t.settings = s.settings := by
  obtain rfl | rfl := h <;> rfl

theorem State.PathHeld.rewrite (h : s.PathHeld n q t) (q' : PathRec) :
    (t.setPath n q').report (.path n) = s.pathReported n q' s.objects := by
  obtain rfl | rfl := h
  · rw [State.setPath_setPath]
    rfl
  · rw [State.setPath_pathReported, State.report_pathReported]

theorem State.PathHeld.raise (h : s.PathHeld n q t) (c : Class) (d : Detail) :
    s.PathHeld n { q with conds := q.conds.raised c s.now s.elapsed d } (t.raiseMomentary (.path n) c d) := by
  refine .inr ?_
  obtain rfl | rfl := h
  · rw [State.raiseMomentary, State.condsOf_path _ (State.path_setPath_self ..),
      State.setConds_path _ (State.path_setPath_self ..), State.setPath_setPath]
    rfl
  · exact State.raise_pathReported c d

/-- A condition raised or not, as a test decides. -/
def CondSet.raisedIf (cs : CondSet) (on : Bool) (c : Class) (now : Date) (mark : Nat) (d : Detail) : CondSet :=
  if on then cs.raised c now mark d else cs

theorem State.PathHeld.raiseIf (h : s.PathHeld n q t) {on : Bool} {P : Prop} [Decidable P] (test : on = true ↔ P)
    (c : Class) (d : Detail) : s.PathHeld n { q with conds := q.conds.raisedIf on c s.now s.elapsed d }
      (if P then t.raiseMomentary (.path n) c d else t) := by
  unfold CondSet.raisedIf
  by_cases isOn : P
  · rw [if_pos isOn, if_pos (test.mpr isOn)]
    exact h.raise c d
  · rw [if_neg isOn, if_neg (mt test.mp isOn)]
    exact h

end Reported

/-! ### The match (R122, R123) -/

section Match

variable {s : State} {ev : BerthEvent} {e : Expectation}

theorem Direction.fulfils_iff {d : Direction} {k : PointKind} : d.fulfils k = true ↔
    match d with
    | .entry _ => k = .arrive ∨ k = .pass
    | .exit => k = .depart := by
  cases d <;> cases k <;> simp [Direction.fulfils]

/-- An expectation fits an event: its path's headcode and its timing point's kind agree. -/
theorem State.fulfilled_iff {h : Headcode} {d : Direction} : s.fulfilled h d e = true ↔
    ∃ p x, s.path e.path = some p ∧ p.points[e.index]? = some x ∧ p.headcode = h ∧
      match d with
      | .entry _ => x.plan.kind = .arrive ∨ x.plan.kind = .pass
      | .exit => x.plan.kind = .depart := by
  unfold State.fulfilled PathRec.point
  cases path : s.path e.path with
  | none => simp
  | some p =>
    dsimp only
    cases point : p.points[e.index]? with
    | none => simp [point]
    | some x =>
      simp only [Bool.and_eq_true, decide_eq_true_iff, Direction.fulfils_iff]
      exact ⟨fun fits => ⟨p, x, rfl, point, fits⟩, fun ⟨p', x', path', point', fits⟩ => by
        cases path'
        cases point.symm.trans point'
        exact fits⟩

theorem State.queueOf_berth {n : Nat} {r : ObjectRec} {b : BerthRec} (stored : s.object n = some r)
    (kind : r.kind = .berth b) : s.queueOf n = b.queue := by
  rw [State.queueOf, stored, Option.map_some, kind]

theorem State.exec_berthEvent {rest : List BerthEvent} (held : s.held = false) (first : s.berthEvents = ev :: rest) :
    exec .berthEvent s = .next (({ s with berthEvents := rest } : State).berthEvent ev).settle := by
  show (s.whenRunning State.takeBerthEvent).answer = _
  rw [State.whenRunning_of _ held, State.takeBerthEvent, first]
  rfl

/-- An unmatched entry is answered when it is owed an answer (R124). -/
theorem State.answerUnmatched_eq : s.answerUnmatched ev = { s with
    answers := s.answers ++
      if ev.direction = Direction.entry true then ([⟨ev.berth, ev.headcode, ev.date⟩] : List Answer) else [] } := by
  unfold State.answerUnmatched
  split
  · next entry => rw [if_pos entry]
  · next entry => rw [if_neg (by simp [entry]), List.append_nil]
  · next exit => rw [if_neg (by simp [exit]), List.append_nil]

theorem State.matched_of {p : PathRec} {x : TimingPoint} (path : s.path e.path = some p)
    (point : p.points[e.index]? = some x) (date : Date) :
    s.matched e date = s.passPoint e.path p e.index x.plan date := by
  rw [State.matched, path]
  dsimp only
  rw [PathRec.point, point]

end Match

/-! ### What a pass writes (R125 to R128) -/

section Pass

variable {s : State} {p : PathRec} {k : Nat} {o : OutcomePart}

theorem clampInt_eq {lo hi x : Int} (proper : lo ≤ hi) : clampInt lo hi x = max lo (min hi x) := by
  unfold clampInt
  split
  · omega
  · split <;> omega

theorem Date.judged_iff {d : Date} : d.judged = true ↔ d.quality ≠ .unsync ∧ d.kind = .observed := by
  simp [Date.judged]

/-- The timing points after the pass of point k: its outcome is written, and the point skipped before it (R125). -/
def PathRec.pointsAfter (p : PathRec) (k : Nat) (o : OutcomePart) : List TimingPoint :=
  (if k = p.passed + 1 then p.points.modify p.passed fun y => { y with outcome := some .skipped } else p.points).modify k
    fun y => { y with outcome := some o }

theorem PathRec.withOutcome_skipTo : (p.skipTo k).withOutcome k o = { p with points := p.pointsAfter k o } := by
  unfold PathRec.skipTo PathRec.pointsAfter
  split <;> rfl

theorem PathRec.passedAt_checked {deviation : Int} (checked : o.deviation = some deviation) : p.passedAt k o = { p with
    points := p.pointsAfter k o, passed := k + 1, carried := deviation, lastDeviation := some deviation } := by
  rw [PathRec.passedAt, PathRec.withOutcome_skipTo, checked]
  rfl

theorem PathRec.passedAt_unchecked (unchecked : o.deviation = none) : p.passedAt k o = { p with
    points := p.pointsAfter k o, passed := k + 1 } := by
  rw [PathRec.passedAt, PathRec.withOutcome_skipTo, unchecked]
  rfl

/-- The points behind a pass stand as they were. -/
theorem PathRec.getElem?_pointsAfter {i : Nat} (later : k < i) : (p.pointsAfter k o)[i]? = p.points[i]? := by
  unfold PathRec.pointsAfter
  rw [List.getElem?_modify_ne _ _ (by omega)]
  split
  · exact List.getElem?_modify_ne _ _ (by omega)
  · rfl

theorem PathRec.length_pointsAfter : (p.pointsAfter k o).length = p.points.length := by
  unfold PathRec.pointsAfter
  rw [List.length_modify]
  split
  · exact List.length_modify ..
  · rfl

end Pass

/-! ### Moving on (R129 to R131) -/

section MoveOn

variable {s t : State} {n : Nat} {q : PathRec}

theorem State.disarm_pathReported (objects : Store ObjectRec) : (s.pathReported n q objects).disarm n =
    s.pathReported n q (objects.mapVals (ObjectRec.onQueue fun l => l.filter fun e => e.path ≠ n)) := rfl

/-- Arming after a pass: the berths' queues change, as they do without the pass. -/
theorem State.armNext_pathReported (p : PathRec) : (s.pathReported n q (s.disarm n).objects).armNext n p =
    s.pathReported n q ((s.disarm n).armNext n p).objects := by
  rw [State.armNext_eq, State.objects_armNext (t := s.pathReported n q (s.disarm n).objects) (s.disarm n) n p rfl]
  rfl

/-- The path is complete (R130). -/
theorem State.PathHeld.completes (h : s.PathHeld n q t) (complete : q.points.length ≤ q.passed) (date : Date) :
    t.moveOn n date = s.pathReported n { q with
      state := .complete
      ended := some date
      deadline := s.retireDeadline date
      conds := if q.conds.active .pathOverdue then q.conds.ended .pathOverdue else q.conds } (s.disarm n).objects := by
  have retire : t.retireDeadline date = s.retireDeadline date := by rw [State.retireDeadline, h.settings]; rfl
  rw [State.moveOn, h.path]
  dsimp only
  rw [if_pos complete, State.endPath, h.rewrite, State.disarm_pathReported, State.endCause_pathReported, retire]
  rfl

/-- The path runs on to its next point, whose deadline is not due, or was not overdue (R129, R131). -/
theorem State.PathHeld.runsOn (h : s.PathHeld n q t) (date : Date) {y : TimingPoint}
    (next : q.points[q.passed]? = some y) : t.moveOn n date = s.pathReported n { q with
      state := .running
      deadline := some (if q.conds.active .pathOverdue = true ∧ s.tc.service = .serving ∧
          q.projectedAt y.plan + (y.plan.late : Int) * 1000 ≤ (s.tb.stationUs / 1000 : Nat) then
          s.lostDeadline (q.projectedAt y.plan)
        else ⟨q.projectedAt y.plan + (y.plan.late : Int) * 1000, .overdue⟩)
      conds := if q.conds.active .pathOverdue = true ∧ s.tc.service = .serving ∧
          q.projectedAt y.plan + (y.plan.late : Int) * 1000 ≤ (s.tb.stationUs / 1000 : Nat) then
          (if q.conds.active .pathOverdue then q.conds.ended .pathOverdue else q.conds).begun .pathOverdue s.now s.elapsed
            (.pathOverdue q.passed (q.projectedAt y.plan))
        else if q.conds.active .pathOverdue then q.conds.ended .pathOverdue else q.conds }
      ((s.disarm n).armNext n q).objects := by
  let p' : PathRec := { q with
    state := .running, deadline := some ⟨q.projectedAt y.plan + (y.plan.late : Int) * 1000, .overdue⟩ }
  have runs : t.moveOn n date = (s.pathReported n p' ((s.disarm n).armNext n p').objects).renewOverdue n := by
    rw [State.moveOn, h.path]
    dsimp only
    rw [if_neg (not_le.mpr (List.getElem?_eq_some_iff.mp next).1), State.runOn, h.rewrite, State.disarm_pathReported,
      PathRec.overdueDeadline_of next]
    exact congrArg (State.renewOverdue · n) (State.armNext_pathReported _)
  have objects : ((s.disarm n).armNext n p').objects = ((s.disarm n).armNext n q).objects := rfl
  have isDue : (s.pathReported n p' ((s.disarm n).armNext n p').objects).deadlineDue p' = true ↔
      s.tc.service = .serving ∧ q.projectedAt y.plan + (y.plan.late : Int) * 1000 ≤ (s.tb.stationUs / 1000 : Nat) := by
    rw [State.deadlineDue_iff]
    exact ⟨fun ⟨d, same, isServing, time⟩ => by cases same; exact ⟨isServing, time⟩, fun both => ⟨_, rfl, both⟩⟩
  rw [runs]
  by_cases again : q.conds.active .pathOverdue = true ∧ s.tc.service = .serving ∧
      q.projectedAt y.plan + (y.plan.late : Int) * 1000 ≤ (s.tb.stationUs / 1000 : Nat)
  · refine (State.renewOverdue_again (p := p') State.path_pathReported again.1 (isDue.mpr again.2)
      (PathRec.due_of (p := p') next)).trans ?_
    rw [State.setPath_pathReported, State.endCause_pathReported, State.beginCause, State.causeActive,
      State.condsOf_pathReported, State.causeBegins_pathReported, if_pos again.1, if_neg (by simp), if_pos again,
      if_pos again, objects]
    rfl
  · rw [State.renewOverdue_ends (p := p') State.path_pathReported fun ⟨active, due⟩ => again ⟨active, isDue.mp due⟩,
      State.endCause_pathReported, if_neg again, if_neg again, objects]

end MoveOn

end Sys2Proof.Machine
end

section
/-! PROOFS. A berth event, once matched, raises what it judges, and its path moves on (R125 to R131): O48. -/

namespace Sys2Proof.Machine

section Raises

variable {s t : State} {n k : Nat} {q p : PathRec} {o : OutcomePart}

theorem State.PathHeld.raiseSkipped (h : s.PathHeld n q t) (k : Nat) (p : PathRec) : s.PathHeld n { q with
    conds := q.conds.raisedIf (decide (k = p.passed + 1)) .pathSkipped s.now s.elapsed (.pathSkipped p.passed k) }
      (t.raiseSkipped n k p) := h.raiseIf decide_eq_true_iff _ _

theorem State.PathHeld.of_conds {cs : CondSet} (h : s.PathHeld n q t) (same : q.conds = cs) :
    s.PathHeld n { q with conds := cs } t := by
  rw [← same]
  exact h

theorem State.raiseJudged_unchecked (unchecked : o.deviation = none) : t.raiseJudged n k o = t := by
  unfold State.raiseJudged
  rw [unchecked]
  cases o.outcome <;> rfl

/-- A checked pass raises what its outcome says (R127). -/
theorem State.PathHeld.raiseJudged {d : Int} (h : s.PathHeld n q t) (checked : o.deviation = some d) :
    s.PathHeld n { q with
      conds := (q.conds.raisedIf (decide (o.outcome = .late)) .pathLate s.now s.elapsed (.pathJudged k d)).raisedIf
        (decide (o.outcome = .early)) .pathEarly s.now s.elapsed (.pathJudged k d) } (t.raiseJudged n k o) := by
  unfold State.raiseJudged
  rw [checked]
  cases o.outcome with
  | late => exact h.raise .pathLate (.pathJudged k d)
  | early => exact h.raise .pathEarly (.pathJudged k d)
  | onTime | skipped | notChecked => exact h

/-- The route check of a timing point, with the record of its point where it is wrong (R128). -/
def State.wrongPoint (s : State) (t : Plan) : Option (RouteCheck × PointRec) :=
  t.route.bind fun c =>
    match (s.object c.point).map ObjectRec.kind with
    | some (.point q) => if q.movement ≠ none ∨ q.detected ≠ c.expected.detected then some (c, q) else none
    | _ => none

theorem State.wrongRouteOf_eq (x : Plan) :
    s.wrongRouteOf x = (s.wrongPoint x).map fun w => (w.1, w.2.detected, w.2.movement.isSome) := by
  unfold State.wrongRouteOf State.wrongPoint State.wrongRoute
  cases x.route with
  | none => rfl
  | some c =>
    dsimp only [Option.bind_some]
    cases (s.object c.point).map ObjectRec.kind with
    | none => rfl
    | some kind =>
      cases kind with
      | point p =>
        simp only [← Option.isSome_iff_ne_none]
        split <;> rfl
      | signal g => rfl
      | berth b => rfl

/-- The conditions after the route check (R128). -/
def CondSet.routed (cs : CondSet) (k : Nat) (wrong : Option (RouteCheck × PointRec)) (now : Date) (mark : Nat) : CondSet :=
  match wrong with
  | some (c, q) => cs.raised .pathWrongRoute now mark
    (.pathWrongRoute k c.point c.expected q.detected q.movement.isSome)
  | none => cs

theorem State.PathHeld.raiseWrongRoute (h : s.PathHeld n q t) (wrong : Option (RouteCheck × PointRec)) :
    s.PathHeld n { q with conds := q.conds.routed k wrong s.now s.elapsed }
      (t.raiseWrongRoute n k (wrong.map fun w => (w.1, w.2.detected, w.2.movement.isSome))) := by
  cases wrong with
  | none => exact h
  | some w => exact h.raise _ _

end Raises

/-- Settles O48: the first expectation that fits is the match; the pass writes its path, raises what it judges, and the path
completes or runs on. -/
theorem berthEventPassesItsPoint : Obligations.BerthEventPassesItsPoint := by
  unfold Obligations.BerthEventPassesItsPoint
  intro s ev rest r b held first berth kind fits
  have taken := State.exec_berthEvent held first
  let s₀ : State := { s with berthEvents := rest }
  have isFit : ∀ e, s₀.fulfilled ev.headcode ev.direction e = true ↔ fits e := fun e => State.fulfilled_iff
  have queue : s₀.queueOf ev.berth = b.queue := State.queueOf_berth berth kind
  constructor
  · intro none
    have unmatched : s₀.matchOf ev = .none := by
      rw [State.matchOf, queue, List.find?_eq_none]
      exact fun e mem => mt (isFit e).mp (none e mem)
    refine taken.trans (next_settle ?_)
    rw [State.berthEvent, unmatched]
    exact State.answerUnmatched_eq
  · intro before e after p x split unfit fit path point k now planned seconds graded wrong judged outcome skipped points raised
      judgedSet routeSet carried done endedSet projected due again record armed
    have isMatch : s₀.matchOf ev = some e := by
      rw [State.matchOf, queue, split, List.find?_append,
        List.find?_eq_none.mpr fun y mem => mt (isFit y).mp (unfit y mem), Option.none_or,
        List.find?_cons_of_pos ((isFit e).mpr fit)]
    have passes : exec .berthEvent s = .next (s₀.passPoint e.path p k x.plan ev.date).settle := by
      refine taken.trans (next_settle ?_)
      rw [State.berthEvent, isMatch]
      exact State.matched_of (s := s₀) path point ev.date
    have isWrong : s₀.wrongPoint x.plan = wrong := rfl
    have written : ∃ t, exec .berthEvent s = .next (t.moveOn e.path ev.date).settle ∧ s₀.PathHeld e.path { p with
        points := points
        passed := k + 1
        carried := carried
        lastDeviation := if graded then some seconds else p.lastDeviation
        conds := routeSet } t := by
      have isChecked : ev.date.judged = true ↔ graded := Date.judged_iff
      have outcomes : passOutcome p.day x.plan ev.date wrong.isSome = outcome := by
        have deviation : deviationOf ev.date.ms (plannedMs p.day x.plan) = seconds := clampInt_eq (by decide)
        simp only [passOutcome, deviation, isChecked]
        rfl
      have routes : s₀.wrongRouteOf x.plan = wrong.map fun w => (w.1, w.2.detected, w.2.movement.isSome) :=
        State.wrongRouteOf_eq x.plan
      refine ⟨_, passes, ?_⟩
      rw [routes, Option.isSome_map, outcomes]
      have routed : ∀ cs : CondSet, cs = judgedSet → cs.routed k wrong now s.tb.elapsed = routeSet := fun cs same => by
        rw [same]
        rfl
      by_cases isGraded : graded
      · have isOutcome : outcome = ⟨some ev.date, judged, some seconds, wrong.isSome⟩ := if_pos isGraded
        have begins : s₀.PathHeld e.path { p with
            points := points, passed := k + 1, carried := carried, lastDeviation := some seconds }
            (s₀.setPath e.path (p.passedAt k outcome)) := .inl (by
          rw [PathRec.passedAt_checked (by rw [isOutcome]), show carried = seconds from if_pos isGraded]
          rfl)
        have judges := ((begins.raiseSkipped k p).raiseJudged (k := k) (o := outcome) (by rw [isOutcome])).raiseWrongRoute
          (k := k) wrong
        rw [if_pos isGraded]
        exact judges.of_conds (routed _ (by
          simp only [judgedSet, raised, CondSet.raisedIf, isOutcome, isGraded, true_and]
          rfl))
      · have isOutcome : outcome = ⟨some ev.date, .notChecked, none, wrong.isSome⟩ := if_neg isGraded
        have begins : s₀.PathHeld e.path { p with points := points, passed := k + 1, carried := carried }
            (s₀.setPath e.path (p.passedAt k outcome)) := .inl (by
          rw [PathRec.passedAt_unchecked (by rw [isOutcome]), show carried = p.carried from if_neg isGraded]
          rfl)
        have judges := (begins.raiseSkipped k p).raiseWrongRoute (k := k) wrong
        rw [if_neg isGraded, State.raiseJudged_unchecked (by rw [isOutcome])]
        exact judges.of_conds (routed _ (by
          simp only [judgedSet, raised, CondSet.raisedIf, isGraded, false_and, decide_false, Bool.false_eq_true, if_false]
          rfl))
    obtain ⟨t, passed, holds⟩ := written
    refine passed.trans (next_settle ?_)
    have later : ∀ i, k < i → points[i]? = p.points[i]? := fun i => PathRec.getElem?_pointsAfter (o := outcome)
    by_cases isDone : done
    · have none : p.points[k + 1]? = .none := List.getElem?_eq_none_iff.mpr isDone
      refine ((holds.completes ((PathRec.length_pointsAfter (o := outcome)).trans_le isDone) ev.date).trans
        (congrArg (s₀.pathReported e.path · (s₀.disarm e.path).objects) (a₂ := record) ?_)).trans ?_
      · simp only [record, none, isDone, if_true]
        rfl
      · rw [if_pos isDone]
        rfl
    · obtain ⟨y, next⟩ := Option.ne_none_iff_exists'.mp (mt List.getElem?_eq_none_iff.mp isDone)
      refine ((holds.runsOn ev.date ((later _ (Nat.lt_succ_self k)).trans next)).trans
        (congrArg (s₀.pathReported e.path · _) (a₂ := record) ?_)).trans ?_
      · simp only [record, next, isDone, if_false, Option.map_some]
        rfl
      · have arms : ∀ (q : PathRec) (u : State) i, q.points = points → k < i → u.armPoint e.path q i = armed u i :=
          fun q u i same beyond => by
            rw [State.armPoint, PathRec.point, same, later i beyond] <;> rfl
        rw [if_neg isDone, State.objects_armNext (s.disarm e.path) e.path (t := s₀.disarm e.path) _ rfl, State.armNext,
          arms _ _ _ rfl (Nat.lt_succ_self k), arms _ _ _ rfl (by show k < k + 1 + 1; omega)]
        rfl

end Sys2Proof.Machine
end

section
/-! PROOFS. Time announcements, and the lines at rest that one and each target change evaluate (R133, R139, R145): O49. -/

namespace Sys2Proof.Machine

variable {s : State} {i j : Fin 4}

/-! ### The four links, and the four lines, each by itself -/

/-- The state with all four lines replaced. -/
def State.setLines (s : State) (g : Fin 4 → Line) : State :=
  (((s.setLine 0 (g 0)).setLine 1 (g 1)).setLine 2 (g 2)).setLine 3 (g 3)

/-- The state with all four links replaced. -/
def State.setLinks (s : State) (g : Fin 4 → Link) : State :=
  (((s.setLink 0 (g 0)).setLink 1 (g 1)).setLink 2 (g 2)).setLink 3 (g 3)

theorem Vec.get_set_four {α : Type} (v : Vec α 4) (g : Fin 4 → α) (i : Fin 4) :
    ((((v.set 0 (g 0)).set 1 (g 1)).set 2 (g 2)).set 3 (g 3)).get i = g i := by
  match i with
  | 0 => rw [Vec.get_set_ne _ _ (by decide), Vec.get_set_ne _ _ (by decide), Vec.get_set_ne _ _ (by decide),
      Vec.get_set_self]
  | 1 => rw [Vec.get_set_ne _ _ (by decide), Vec.get_set_ne _ _ (by decide), Vec.get_set_self]
  | 2 => rw [Vec.get_set_ne _ _ (by decide), Vec.get_set_self]
  | 3 => rw [Vec.get_set_self]

theorem State.line_setLines (g : Fin 4 → Line) (i : Fin 4) : (s.setLines g).line i = g i :=
  Vec.get_set_four s.sc.lines g i

theorem State.link_setLinks (g : Fin 4 → Link) (i : Fin 4) : (s.setLinks g).link i = g i :=
  Vec.get_set_four s.links g i

/-- A step on each of four records, each record's by itself, is all four at once. -/
theorem foldl_four {S R : Type} {put : S → Fin 4 → R → S} {step : S → Fin 4 → S} {g : S → Fin 4 → R}
    (steps : ∀ s i, step s i = put s i (g s i)) (alone : ∀ s i j r, j ≠ i → g (put s j r) i = g s i) (s : S) :
    four.foldl step s = put (put (put (put s 0 (g s 0)) 1 (g s 1)) 2 (g s 2)) 3 (g s 3) := by
  simp only [four, List.foldl_cons, List.foldl_nil, steps]
  rw [alone _ 1 0 _ (by decide), alone _ 2 1 _ (by decide), alone _ 2 0 _ (by decide), alone _ 3 2 _ (by decide),
    alone _ 3 1 _ (by decide), alone _ 3 0 _ (by decide)]

theorem State.foldl_setLine {step : State → Fin 4 → State} {g : State → Fin 4 → Line}
    (steps : ∀ (s : State) i, step s i = s.setLine i (g s i))
    (alone : ∀ (s : State) (i : Fin 4) {j : Fin 4} (l : Line), j ≠ i → g (s.setLine j l) i = g s i) (s : State) :
    four.foldl step s = s.setLines (g s) :=
  foldl_four steps (fun s i _ l => alone s i l) s

theorem State.foldl_setLink {step : State → Fin 4 → State} {g : State → Fin 4 → Link}
    (steps : ∀ (s : State) i, step s i = s.setLink i (g s i))
    (alone : ∀ (s : State) (i : Fin 4) {j : Fin 4} (l : Link), j ≠ i → g (s.setLink j l) i = g s i) (s : State) :
    four.foldl step s = s.setLinks (g s) :=
  foldl_four steps (fun s i _ l => alone s i l) s

/-! ### The lines at rest (R139, R145) -/

/-- What an announcement or a target change makes of a line: at rest it evaluates (R139, R145). -/
def State.restedLine (s : State) (i : Fin 4) : Line :=
  if (s.line i).state.resting then { s.line i with state := s.decision i } else s.line i

theorem LineState.resting_iff {x : LineState} : x.resting = true ↔ x = .idle ∨ ∃ why, x = .wait why := by
  cases x <;> simp [LineState.resting]

theorem State.evaluateResting_eq (i : Fin 4) : s.evaluateResting i = s.setLine i (s.restedLine i) := by
  unfold State.evaluateResting State.restedLine
  by_cases rests : (s.line i).state.resting = true
  · rw [if_pos rests, if_pos rests]
    rfl
  · rw [if_neg rests, if_neg rests, State.setLine_line]

theorem State.decision_setLine_ne (l : Line) (other : j ≠ i) : (s.setLine j l).decision i = s.decision i := by
  simp only [State.decision, State.line_setLine_ne _ l other]
  rfl

theorem State.restedLine_setLine_ne (l : Line) (other : j ≠ i) : (s.setLine j l).restedLine i = s.restedLine i := by
  simp only [State.restedLine, State.line_setLine_ne _ l other, State.decision_setLine_ne l other]

/-- The lines do not see each other: all four evaluate as the state stood. -/
theorem State.evaluateAll_eq : s.evaluateAll = s.setLines s.restedLine :=
  State.foldl_setLine (fun _ => State.evaluateResting_eq) (fun _ _ => State.restedLine_setLine_ne) s

theorem State.line_evaluateAll (i : Fin 4) : s.evaluateAll.line i = s.restedLine i := by
  rw [State.evaluateAll_eq, State.line_setLines]

theorem State.evaluateAll_frame : s.evaluateAll = { s with sc := { s.sc with lines := s.evaluateAll.sc.lines } } := by
  rw [State.evaluateAll_eq]
  rfl

/-- What R139 and R145 ask of the lines after an evaluation of all four: those at rest evaluate, the others stand. -/
structure State.LinesEvaluate (s t : State) (i : Fin 4) : Prop where
  stands : (s.line i).state ≠ .idle → (∀ why, (s.line i).state ≠ .wait why) → t.line i = s.line i
  evaluates : ∀ position last, (s.line i).state = .idle ∨ (∃ why, (s.line i).state = .wait why) →
    (s.line i).dial = .at position last → t.line i = { s.line i with state := s.evaluatedLine i position last }

theorem State.linesEvaluate (s : State) (i : Fin 4) : s.LinesEvaluate s.evaluateAll.settle i := by
  have rested : s.evaluateAll.settle.line i = s.restedLine i := s.line_evaluateAll i
  refine ⟨fun notIdle notWait => ?_, fun position last rests dial => ?_⟩ <;> rw [rested, State.restedLine]
  · refine if_neg fun rests => ?_
    rcases LineState.resting_iff.mp rests with idle | ⟨why, wait⟩
    · exact notIdle idle
    · exact notWait why wait
  · rw [if_pos (LineState.resting_iff.mpr rests), State.decision_at dial]

theorem Quality.service_eq (q : Quality) :
    q.service = if q = Quality.unsync then Service.suspended else .serving := by
  cases q <;> rfl

/-- The lines and the attention outputs apart, an evaluation of all lines leaves the state. -/
theorem State.settle_evaluateAll (s : State) : s.evaluateAll.settle = { s with
    sc := { s.sc with lines := s.evaluateAll.settle.sc.lines }, attnU := s.evaluateAll.settle.attnU,
    attnR := s.evaluateAll.settle.attnR } :=
  congrArg (fun t => { t with attnU := s.evaluateAll.settle.attnU, attnR := s.evaluateAll.settle.attnR })
    s.evaluateAll_frame

/-- The lines do not read the announcements. -/
theorem State.LinesEvaluate.of_taken {r t : State} {rest : List ScAnnouncement}
    (taken : r = { s with sc := { s.sc with announcements := rest } }) (h : r.LinesEvaluate t i) : s.LinesEvaluate t i := by
  subst taken
  exact ⟨h.stands, h.evaluates⟩

/-- Settles O49: the announcements taken in their order, and the evaluation of each line at rest, which no other line's
evaluation changes. -/
theorem announcementsAreTaken : Obligations.AnnouncementsAreTaken := by
  unfold Obligations.AnnouncementsAreTaken
  intro s held evaluated
  refine ⟨fun a rest queued => ?_, fun a rest queued => ?_, ?_⟩
  · show (s.whenRunning State.tcTakes).answer = _
    rw [State.whenRunning_of _ held, State.tcTakes, queued, ← Quality.service_eq]
    rfl
  · obtain ⟨r, taken⟩ : ∃ r : State, r = { s with sc := { s.sc with announcements := rest } } := ⟨_, rfl⟩
    have takes : exec .scTakesTimeAnnouncement s = .next r.evaluateAll.settle := by
      show (s.whenRunning State.scTakes).answer = _
      rw [State.whenRunning_of _ held, State.scTakes, queued, taken]
      rfl
    have frame := r.settle_evaluateAll
    have lines := fun i => (r.linesEvaluate i).of_taken taken
    generalize r.evaluateAll.settle = t at takes frame lines
    subst taken
    exact ⟨t, takes, frame, fun i => ⟨(lines i).stands, (lines i).evaluates⟩⟩
  · have evaluates : exec .dialTargetChange s = .next s.evaluateAll.settle := by
      show (s.whenRunning State.evaluateAll).answer = _
      rw [State.whenRunning_of _ held]
      rfl
    exact ⟨_, evaluates, s.settle_evaluateAll, fun i => ⟨(s.linesEvaluate i).stands, (s.linesEvaluate i).evaluates⟩⟩

end Sys2Proof.Machine
end

section
/-! PROOFS. The timers of a line: the sense and the completion of an impulse, the gap's end and the retry (R140 to
R143): O50. -/

namespace Sys2Proof.Machine

section Timers

variable {s : State} {i : Fin 4} {c : Impulse} {sense : Sense} {mark position : Nat} {last : Polarity}

/-! ### The sense of an impulse (R142) -/

theorem State.sense_undue (drives : (s.line i).state = .impulse c)
    (undue : c.sensed = true ∨ s.tb.elapsed < c.startMark + c.width / 2) : s.sense i sense = s := by
  have isUndue : ¬ (!c.sensed && decide (c.senseMark ≤ s.elapsed)) = true := by
    rw [Bool.and_eq_true, decide_eq_true_iff, not_and]
    intro unsensed due
    rcases undue with sensed | early
    · simp [sensed] at unsensed
    · exact absurd due (Nat.not_le.mpr early)
  simp only [State.sense, drives]
  exact if_neg isUndue

theorem Impulse.senseDue (unsensed : c.sensed = false) (due : c.startMark + c.width / 2 ≤ s.tb.elapsed) :
    (!c.sensed && decide (c.senseMark ≤ s.elapsed)) = true := by
  rw [unsensed, Bool.and_eq_true]
  exact ⟨rfl, decide_eq_true due⟩

theorem State.sense_normal (drives : (s.line i).state = .impulse c) (unsensed : c.sensed = false)
    (due : c.startMark + c.width / 2 ≤ s.tb.elapsed) : s.sense i .normal = s.setLine i { s.line i with
      lastSense := some .normal, state := .impulse { c with sensed := true } } := by
  simp only [State.sense, drives]
  rw [if_pos (Impulse.senseDue unsensed due), State.onLine, State.onLine, State.line_setLine_self, State.setLine_setLine]

theorem State.sense_cut (drives : (s.line i).state = .impulse c) (unsensed : c.sensed = false)
    (due : c.startMark + c.width / 2 ≤ s.tb.elapsed) (cuts : sense ≠ .normal) :
    s.sense i sense = (s.setLine i { s.line i with lastSense := some sense }).cut i c sense := by
  conv_lhs => simp only [State.sense, drives]
  rw [if_pos (Impulse.senseDue unsensed due)]
  cases sense with
  | normal => exact absurd rfl cuts
  | opened => rfl
  | short => rfl

theorem Dial.position_getD (d : Dial) : d.position.getD 0 = match d with
    | .at position _ => position
    | .unset _ => 0
    | .unknown => 0 := by
  cases d <;> rfl

/-- An impulse cut: LINE_FAULT begins at the line, and the line ends the impulse in FAULT (R142). -/
theorem State.cut_setLine (l : Line) : (s.setLine i l).cut i c sense = s.setLine i (s.lineAfter i
    { l with conds := s.withCause l.conds .lineFault (.lineFault sense c.polarity c.form (l.dial.position.getD 0)) }
    (.fault (s.tb.elapsed + 60000))) := by
  rw [State.cut, State.line_setLine_self, State.beginCause_line, State.restAfter_setLine]
  rfl

/-! ### The completion of an impulse (R140) -/

theorem State.complete_undue (drives : (s.line i).state = .impulse c)
    (undue : c.sensed = false ∨ s.tb.elapsed < c.startMark + c.width) : s.complete i = s := by
  have isUndue : ¬ (c.sensed && decide (c.endMark ≤ s.elapsed)) = true := by
    rw [Bool.and_eq_true, decide_eq_true_iff, not_and]
    intro sensed due
    rcases undue with unsensed | early
    · simp [unsensed] at sensed
    · exact absurd due (Nat.not_le.mpr early)
  simp only [State.complete, drives]
  exact if_neg isUndue

/-- An impulse complete: LINE_FAULT ends at the line, and the line ends the impulse in GAP (R140). -/
theorem State.complete_of (drives : (s.line i).state = .impulse c) (sensed : c.sensed = true)
    (due : c.startMark + c.width ≤ s.tb.elapsed) : s.complete i = s.setLine i (s.lineAfter i
      { (s.line i).completed c with conds := ((s.line i).completed c).conds.without .lineFault } (.gap s.tb.elapsed)) := by
  have isDue : (c.sensed && decide (c.endMark ≤ s.elapsed)) = true := by
    rw [sensed, Bool.true_and]
    exact decide_eq_true due
  simp only [State.complete, drives]
  rw [if_pos isDue, State.onLine, State.endCause_line, State.restAfter_setLine]
  rfl

theorem Line.completed_counted {l : Line} (form : c.form = .counted) (dial : l.dial = .at position last) :
    l.completed c = { l with dial := .at ((position + 1) % l.kind.positions) c.polarity } := by
  rw [Line.completed, form, dial]
  rfl

theorem Line.completed_resolving {l : Line} (form : c.form = .resolving) :
    l.completed c = { l with resolving := false } := by
  rw [Line.completed, form]

theorem State.lineFault_completed (l : Line) (rest : LineState) :
    (s.lineAfter i { l with conds := l.conds.without .lineFault } rest).conds.active .lineFault = false :=
  Bool.eq_false_iff.mpr fun active => by
    have kept := ((State.lineFault_lineAfter _ rest).mp active).1
    rw [CondSet.active_without] at kept
    cases kept

/-! ### The gap's end and the retry (R141, R143) -/

theorem State.gapDue_iff (gap : (s.line i).state = .gap mark) :
    s.gapDue i = true ↔ (mark : Int) + s.settings.gap.get i ≤ (s.tb.elapsed : Int) := by
  rw [State.gapDue, gap]
  exact decide_eq_true_iff

theorem State.retry_undue (faults : (s.line i).state = .fault mark) (undue : s.tb.elapsed < mark) : s.retry i = s := by
  simp only [State.retry, faults]
  exact if_neg (Nat.not_le.mpr undue)

theorem State.retry_starts (faults : (s.line i).state = .fault mark) (due : mark ≤ s.tb.elapsed)
    (starts : s.decision i = .impulse c) : s.retry i = s.setLine i { s.line i with state := .impulse c } := by
  simp only [State.retry, faults, starts]
  exact if_pos due

theorem State.retry_waits (faults : (s.line i).state = .fault mark) (due : mark ≤ s.tb.elapsed)
    (waits : ∀ c, s.decision i ≠ .impulse c) :
    s.retry i = s.setLine i { s.line i with state := .fault (mark + 60000) } := by
  simp only [State.retry, faults]
  exact if_pos due

end Timers

/-- Settles O50: each timer of a line by the state it belongs to, due or not; the end of an impulse leaves
`State.lineAfter`. -/
theorem impulsesStepTheDial : Obligations.ImpulsesStepTheDial := by
  unfold Obligations.ImpulsesStepTheDial
  intro s i held l deferred
  have runs : ∀ f : State → State, (s.whenRunning f).answer = .next (f s).settle := fun f => by
    rw [State.whenRunning_of _ held]
    rfl
  have senses : ∀ sense, exec (.impulseSense i sense) s = .next (s.sense i sense).settle := fun _ => runs _
  have completes : exec (.impulseCompletion i) s = .next (s.complete i).settle := runs _
  have ends : exec (.gapEnd i) s = .next (s.gapEnds i).settle := runs _
  have retries : exec (.faultRetryExpiry i) s = .next (s.retry i).settle := runs _
  refine ⟨fun c drives => ⟨fun unsensed due => ⟨?_, fun sense cuts => ?_⟩, fun undue sense => ?_, fun sensed due =>
    ⟨fun position last form dial => ?_, fun form => ?_⟩, fun undue => ?_⟩, fun completion position last gap dial => ?_,
    fun retry position last faults dial => ⟨fun due starts => ?_, fun due waits => ?_, fun undue => ?_⟩⟩
  · rw [senses, State.sense_normal drives unsensed due]
  · intro faulted after
    refine ⟨?_, ?_⟩
    · rw [senses, State.sense_cut drives unsensed due cuts, State.cut_setLine, Dial.position_getD] <;> rfl
    · refine (State.lineFault_lineAfter _ _).trans (and_iff_right ?_)
      exact State.active_withCause ..
  · rw [senses, State.sense_undue drives undue]
  · refine ⟨?_, State.lineFault_completed { l with dial := .at ((position + 1) % l.kind.positions) c.polarity } _⟩
    rw [completes, State.complete_of drives sensed due, Line.completed_counted form dial]
  · refine ⟨?_, State.lineFault_completed { l with resolving := false } _⟩
    rw [completes, State.complete_of drives sensed due, Line.completed_resolving form]
  · rw [completes, State.complete_undue drives undue]
  · intro stop
    refine ⟨fun due => ?_, fun undue => ?_⟩
    · rw [ends, State.gapEnds, if_pos ((State.gapDue_iff gap).mpr due), State.evaluate_at dial]
    · rw [ends, State.gapEnds, if_neg (mt (State.gapDue_iff gap).mp (Int.not_le.mpr undue))]
  · obtain ⟨c, starts⟩ := starts
    rw [retries, State.retry_starts faults due ((State.decision_at dial).trans starts), starts]
  · rw [retries, State.retry_waits faults due fun c starts => waits c ((State.decision_at dial).symm.trans starts)]
  · rw [retries, State.retry_undue faults undue]

end Sys2Proof.Machine
end

section
/-! PROOFS. DIAL SET: its three checks, and what follows it in each state of the line (R144): O51. -/

namespace Sys2Proof.Machine

section DialSet

variable {s : State} {i : Fin 4} {l : Line} {body : List Byte} {position n : Nat} {given : Option Polarity}
  {polarity : Polarity}

/-! ### The checks -/

theorem polarityOf_none (h : 2 < n) : polarityOf n = none := by
  match n, h with
  | _ + 3, _ => rfl

theorem polarityOf_isSome (h : n ≤ 2) : ∃ given, polarityOf n = some given := by
  match n, h with
  | 0, _ => exact ⟨_, rfl⟩
  | 1, _ => exact ⟨_, rfl⟩
  | 2, _ => exact ⟨_, rfl⟩

/-- The polarity a dial takes by a DIAL SET: the one given, or else the last one of a set dial (R144). -/
def Dial.declared (d : Dial) (given : Option Polarity) : Option Polarity := if d.isSet then given <|> d.last else given

theorem Dial.declared_none (d : Dial) (unset : ∀ n p, d ≠ .at n p) : d.declared none = none := by
  match d, unset with
  | .at n p, unset => exact absurd rfl (unset n p)
  | .unset _, _ => rfl
  | .unknown, _ => rfl

theorem Dial.declared_some (d : Dial) (p : Polarity) : d.declared (some p) = some p := by cases d <;> rfl

theorem LineState.driving_iff {x : LineState} : x.driving = true ↔ ∃ c, x = .impulse c := by
  cases x <;> simp [LineState.driving]

theorem serveDialSet_out (link : linkOf body = some i)
    (out : (s.line i).kind.positions ≤ field body 1 2 ∨ 2 < (byteAt body 3).toNat) :
    serveDialSet body s = .same s .outOfRange .none := by
  unfold serveDialSet
  rw [link]
  cases polarity : polarityOf (byteAt body 3).toNat with
  | none => rfl
  | some given =>
    refine if_neg (Nat.not_lt.mpr (out.resolve_right fun names => ?_))
    rw [polarityOf_none names] at polarity
    cases polarity

theorem serveDialSet_of (link : linkOf body = some i) (fits : field body 1 2 < (s.line i).kind.positions)
    (names : polarityOf (byteAt body 3).toNat = some given) :
    serveDialSet body s = s.dialSet i (field body 1 2) given := by
  unfold serveDialSet
  rw [link, names]
  exact if_pos fits

theorem State.dialSet_busy (drives : ∃ c, (s.line i).state = .impulse c) :
    s.dialSet i position given = .same s .lineBusy .none := if_pos (LineState.driving_iff.mpr drives)

theorem State.dialSet_unknown (rests : ∀ c, (s.line i).state ≠ .impulse c)
    (unknown : (s.line i).dial.declared given = none) : s.dialSet i position given = .same s .outOfRange .none := by
  have notDriving : ¬ (s.line i).state.driving = true := fun drives =>
    (LineState.driving_iff.mp drives).elim rests
  rw [State.dialSet, if_neg notDriving]
  rw [Dial.declared] at unknown
  rw [unknown]

theorem State.dialSet_of (rests : ∀ c, (s.line i).state ≠ .impulse c)
    (known : (s.line i).dial.declared given = some polarity) : s.dialSet i position given =
      ⟨(s.setLine i { s.line i with dial := .at position polarity, resolving := false }).afterDialSet i, .ok, .none⟩ := by
  have notDriving : ¬ (s.line i).state.driving = true := fun drives =>
    (LineState.driving_iff.mp drives).elim rests
  rw [State.dialSet, if_neg notDriving]
  rw [Dial.declared] at known
  rw [known]
  rfl

/-- The polarity a DIAL SET names, or leaves to a set dial, is the one it declares (R144, check 3). -/
theorem polarityOf_declared {d : Dial} (known : (n = 0 ∧ ∃ k, d = .at k polarity) ∨
    (n = 1 ∧ polarity = .positive) ∨ (n = 2 ∧ polarity = .negative)) :
    ∃ given, polarityOf n = some given ∧ d.declared given = some polarity := by
  rcases known with ⟨rfl, k, rfl⟩ | ⟨rfl, rfl⟩ | ⟨rfl, rfl⟩
  · exact ⟨none, rfl, rfl⟩
  · exact ⟨some .positive, rfl, d.declared_some _⟩
  · exact ⟨some .negative, rfl, d.declared_some _⟩

/-! ### What follows -/

/-- An evaluation of a line whose dial is set, whatever its conditions and state. -/
theorem State.evaluate_setLine (dial : l.dial = .at position polarity) : (s.setLine i l).evaluate i =
    (s.setLine i l).setLine i { (s.setLine i l).line i with
      state := (s.setLine i l).evaluatedLine i position polarity } :=
  State.evaluate_at (by rw [State.line_setLine_self, dial])

theorem State.endCause_evaluate (dial : l.dial = .at position polarity) (c : Class) :
    (((s.setLine i l).endCause (.line i) c)).evaluate i = ((s.setLine i l).endCause (.line i) c).setLine i
      { ((s.setLine i l).endCause (.line i) c).line i with
        state := (s.setLine i l).evaluatedLine i position polarity } := by
  obtain ⟨cs, ends⟩ : ∃ cs, (s.setLine i l).endCause (.line i) c = s.setLine i { l with conds := cs } :=
    ⟨_, State.endCause_line ..⟩
  rw [ends, State.evaluate_setLine (l := { l with conds := cs }) dial]
  have same := State.evaluatedLine_setLine (s := s.setLine i l) (i := i) { l with conds := cs } position polarity
    (by rw [State.line_setLine_self]) (by rw [State.line_setLine_self])
  rw [State.setLine_setLine] at same
  rw [same]

theorem State.afterDialSet_unset (unset : (s.line i).state = .unset) :
    s.afterDialSet i = (s.endCause (.line i) .dialUnset).evaluate i := by
  rw [State.afterDialSet, unset]

theorem State.afterDialSet_resting (rests : (s.line i).state = .idle ∨ ∃ why, (s.line i).state = .wait why) :
    s.afterDialSet i = s.evaluate i := by
  rcases rests with idle | ⟨why, wait⟩
  · rw [State.afterDialSet, idle]
  · rw [State.afterDialSet, wait]

theorem State.afterDialSet_stands (stands : (s.line i).state = .off ∨ (∃ m, (s.line i).state = .gap m) ∨
    ∃ m, (s.line i).state = .fault m) : s.afterDialSet i = s := by
  rcases stands with off | ⟨m, gap⟩ | ⟨m, fault⟩
  · rw [State.afterDialSet, off]
  · rw [State.afterDialSet, gap]
  · rw [State.afterDialSet, fault]

end DialSet

/-- Settles O51: the checks in their order, then what follows the setting by the line's state, which it leaves. -/
theorem dialSetDeclaresTheDial : Obligations.DialSetDeclaresTheDial := by
  unfold Obligations.DialSetDeclaresTheDial
  intro f s admits position given
  refine ⟨fun out => ?_, fun i named => ?_⟩
  · refine State.exec_replies admits rfl ?_
    rw [serveDialSet, linkOf_none out]
  · have link := linkOf_eq named
    refine ⟨fun out => State.exec_replies admits rfl (serveDialSet_out link out), fun c fits names drives => ?_,
      fun fits rests noneGiven unset => ?_, fun polarity fits rests known => ?_⟩
    · obtain ⟨g, names⟩ := polarityOf_isSome names
      exact State.exec_replies admits rfl ((serveDialSet_of link fits names).trans (State.dialSet_busy ⟨c, drives⟩))
    · have names : polarityOf (byteAt f.body 3).toNat = some none := by rw [show (byteAt f.body 3).toNat = 0 from noneGiven]; rfl
      exact State.exec_replies admits rfl ((serveDialSet_of link fits names).trans
        (State.dialSet_unknown rests (Dial.declared_none _ unset)))
    · obtain ⟨g, names, declares⟩ := polarityOf_declared known
      have serves := (serveDialSet_of link fits names).trans (State.dialSet_of rests declares)
      intro set evaluated
      have state : (set.line i).state = (s.line i).state := 
        (congrArg Line.state (State.line_setLine_self s i
          { s.line i with dial := .at position polarity, resolving := false })).trans rfl
      have accepts : ∀ t, set.afterDialSet i = t → serveDialSet f.body s = ⟨t, .ok, .none⟩ := fun t after => by
        rw [serves, ← after]
      refine ⟨fun unset => ?_, fun resting => ?_, fun stands => ?_⟩
      · refine State.exec_served admits rfl (accepts _ ?_)
        rw [State.afterDialSet_unset (state.trans unset), State.endCause_evaluate rfl]
      · refine State.exec_served admits rfl (accepts _ ?_)
        rw [State.afterDialSet_resting (by rwa [state]), State.evaluate_setLine rfl]
      · refine State.exec_served admits rfl (accepts _ ?_)
        exact State.afterDialSet_stands (by rwa [state])

end Sys2Proof.Machine
end

section
/-! PROOFS. What each owner makes of a changed setting of its own (Table 10-1; R35, R147, R148): O52. -/

namespace Sys2Proof.Machine

section Owners

variable {s : State} {i : Fin 4}

@[simp] theorem index4_val (i : Fin 4) : index4 i.val = i := Fin.ext (Nat.mod_eq_of_lt i.isLt)

/-! ### A link's enable setting (R35) -/

/-- A link as its disabling leaves it, its queue apart. -/
def Link.stopped (l : Link) : Link := { l with framing := .hunting, silenceStart := none, state := .quiet }

theorem State.disableLink_up {last : StationQ} (up : (s.link i).state = .up) (known : (s.link i).lastValid = some last) :
    s.disableLink i = s.setLink i ((s.link i).stopped.placeMarker ⟨last, .disabled, i⟩) := by
  simp only [State.disableLink, up, known]
  rw [State.onLink, State.onLink, State.link_setLink_self, State.setLink_setLink]
  rfl

theorem State.disableLink_quiet (quiet : (s.link i).state = .quiet) :
    s.disableLink i = s.setLink i { s.link i with framing := .hunting, silenceStart := none } := by
  conv_lhs => simp only [State.disableLink, quiet]
  rw [State.onLink, ← quiet]

theorem State.disableLink_gap (gap : (s.link i).state = .gap) :
    s.disableLink i = (s.setLink i (s.link i).stopped).endCause (.link i) .linkGap := by
  simp only [State.disableLink, gap]
  rfl

/-! ### A line's enable setting (R147) -/

theorem Dial.isSet_iff {d : Dial} : d.isSet = true ↔ ∃ n p, d = .at n p := by
  cases d <;> simp [Dial.isSet]

theorem State.enableLine_set {position : Nat} {last : Polarity} (dial : (s.line i).dial = .at position last) :
    s.enableLine i =
      s.setLine i { s.line i with enabled := true, state := s.evaluatedLine i position last } := by
  have same := State.evaluatedLine_setLine { s.line i with enabled := true, state := .idle } position last rfl rfl
  rw [State.enableLine, if_pos (Dial.isSet_iff.mpr ⟨_, _, dial⟩), State.onLine,
    State.evaluate_setLine (l := { s.line i with enabled := true, state := .idle }) dial, same,
    State.line_setLine_self, State.setLine_setLine]

theorem State.enableLine_unset (unset : ∀ n p, (s.line i).dial ≠ .at n p) : s.enableLine i =
    (s.setLine i { s.line i with enabled := true, state := .unset }).beginCause (.line i) .dialUnset
      (.dialUnset (s.line i).kind .enabled) := by
  have notSet : ¬ (s.line i).dial.isSet = true := fun isSet =>
    (Dial.isSet_iff.mp isSet).elim fun n h => h.elim fun p => unset n p
  rw [State.enableLine, if_neg notSet, State.beginDialUnset, State.onLine, State.line_setLine_self]

theorem State.lineEnableChanged_of (enabled : s.settings.lineEnable.get i = true) :
    s.lineEnableChanged i = if (s.line i).enabled = true then s else s.enableLine i := if_pos enabled

theorem State.lineEnableChanged_off (disabled : s.settings.lineEnable.get i = false)
    (on : (s.line i).enabled = true) (rests : ∀ c, (s.line i).state ≠ .impulse c) :
    s.lineEnableChanged i = s.disableLine i := by
  have notDriving : (s.line i).state.driving = false :=
    Bool.eq_false_iff.mpr fun drives => (LineState.driving_iff.mp drives).elim rests
  simp [State.lineEnableChanged, disabled, on, notDriving]

theorem State.lineEnableChanged_stands (disabled : s.settings.lineEnable.get i = false)
    (stands : (s.line i).enabled = false ∨ ∃ c, (s.line i).state = .impulse c) : s.lineEnableChanged i = s := by
  rcases stands with off | drives
  · simp [State.lineEnableChanged, disabled, off]
  · simp [State.lineEnableChanged, disabled, LineState.driving_iff.mpr drives]

/-! ### A line's dial kind setting (R148) -/

theorem State.dialKindChanged_stands
    (stands : s.settings.dialKind.get i = (s.line i).kind ∨ ∃ c, (s.line i).state = .impulse c) :
    s.dialKindChanged i = s := by
  rcases stands with same | drives
  · rw [State.dialKindChanged, State.applyKind, if_pos same, ite_self]
  · exact if_pos (LineState.driving_iff.mpr drives)

theorem State.dialKindChanged_of (other : s.settings.dialKind.get i ≠ (s.line i).kind)
    (rests : ∀ c, (s.line i).state ≠ .impulse c) :
    s.dialKindChanged i = s.changeKind i (s.settings.dialKind.get i) := by
  have notDriving : ¬ (s.line i).state.driving = true := fun drives =>
    (LineState.driving_iff.mp drives).elim rests
  rw [State.dialKindChanged, if_neg notDriving, State.applyKind, if_neg other]

theorem State.changeKind_eq (k : DialKind) : s.changeKind i k =
    if (s.line i).enabled = true then
      ((s.setLine i ((s.line i).rekinded k)).endCause (.line i) .lineFault).beginCause (.line i) .dialUnset
        (.dialUnset k .kindChange)
    else (s.setLine i ((s.line i).rekinded k)).endCause (.line i) .lineFault := by
  have kind : (((s.setLine i ((s.line i).rekinded k)).endCause (.line i) .lineFault).line i).kind = k := by
    rw [State.endCause_line, State.line_setLine_self]
    rfl
  simp only [State.changeKind, State.onLine, State.beginDialUnset, kind]

/-! ### The hand-over to one link or line (Table 10-1) -/

theorem State.handOver_linkEnable : s.handOver .linkEnable i.val =
    if s.settings.linkEnable.get i then s.enableLink i else s.disableLink i := by
  simp only [State.handOver, index4_val]

theorem State.handOver_silenceLimit : s.handOver .silenceLimit i.val = s.silence i := by
  simp only [State.handOver, index4_val]

theorem State.handOver_lineEnable : s.handOver .lineEnable i.val = s.lineEnableChanged i := by
  simp only [State.handOver, index4_val]

theorem State.handOver_dialKind : s.handOver .dialKind i.val = s.dialKindChanged i := by
  simp only [State.handOver, index4_val]

theorem State.handOver_gap : s.handOver .gap i.val = s.gapEnds i := by simp only [State.handOver, index4_val]

theorem State.handOver_holdWindow : s.handOver .holdWindow i.val = s.evaluateResting i := by
  simp only [State.handOver, index4_val]

theorem State.handOver_linkDisabled (disabled : s.settings.linkEnable.get i = false) :
    s.handOver .linkEnable i.val = s.disableLink i := by
  rw [State.handOver_linkEnable, if_neg (Bool.eq_false_iff.mp disabled)]

end Owners

/-- Settles O52: each setting at its owner; a line in IMPULSE defers what its enable and dial kind settings ask. -/
theorem changedSettingsReachTheirOwners : Obligations.ChangedSettingsReachTheirOwners := by
  unfold Obligations.ChangedSettingsReachTheirOwners
  intro s
  have runs : ∀ f : State → State, s.held = false → (s.whenRunning f).answer = .next (f s).settle := fun f held => by
    rw [State.whenRunning_of _ held]
    rfl
  refine ⟨fun item n read => ?_, fun item n civil => ?_, runs State.holdoverLimit, fun i => ?_⟩
  · simp only [List.mem_cons, List.not_mem_nil, or_false] at read
    rcases read with rfl | rfl | rfl | rfl | rfl | rfl | rfl | rfl <;> rfl
  · rcases civil with rfl | rfl <;> rfl
  · intro l resting
    have rests : l.state.resting = true ↔ resting := LineState.resting_iff
    refine ⟨fun held => ?_, fun held => ?_, fun position last rest dial => ?_, fun moves => ?_, fun enabled => ?_,
      fun last disabled up known => ?_, fun disabled quiet => ?_, fun disabled gap => ?_, fun enabled on => ?_,
      fun position last enabled off dial => ?_, fun enabled off unset => ?_, fun disabled stands => ?_,
      fun disabled on notImpulse => ?_, fun stands => ?_, fun other notImpulse => ?_⟩
    · rw [State.handOver_silenceLimit]
      exact runs (·.silence i) held
    · rw [State.handOver_gap]
      exact runs (·.gapEnds i) held
    · rw [State.handOver_holdWindow, State.evaluateResting, if_pos (rests.mpr rest), State.evaluate_at dial]
    · rw [State.handOver_holdWindow, State.evaluateResting, if_neg (mt rests.mp moves)]
    · exact State.handOver_linkEnable.trans (if_pos enabled)
    · intro stopped
      have disables := (State.handOver_linkDisabled disabled).trans (State.disableLink_up up known)
      refine ⟨fun room => ?_, fun full => ?_⟩
      · exact disables.trans (congrArg (s.setLink i) (if_pos room))
      · exact disables.trans (congrArg (s.setLink i) (if_neg (Nat.not_lt.mpr full)))
    · exact (State.handOver_linkDisabled disabled).trans (State.disableLink_quiet quiet)
    · exact (State.handOver_linkDisabled disabled).trans (State.disableLink_gap gap)
    · rw [State.handOver_lineEnable, State.lineEnableChanged_of enabled, if_pos on]
    · rw [State.handOver_lineEnable, State.lineEnableChanged_of enabled, if_neg (Bool.eq_false_iff.mp off),
        State.enableLine_set dial]
    · rw [State.handOver_lineEnable, State.lineEnableChanged_of enabled, if_neg (Bool.eq_false_iff.mp off),
        State.enableLine_unset unset]
    · exact State.handOver_lineEnable.trans (State.lineEnableChanged_stands disabled stands)
    · exact State.handOver_lineEnable.trans (State.lineEnableChanged_off disabled on notImpulse)
    · exact State.handOver_dialKind.trans (State.dialKindChanged_stands stands)
    · exact State.handOver_dialKind.trans
        ((State.dialKindChanged_of other notImpulse).trans (State.changeKind_eq _))

end Sys2Proof.Machine
end

section
/-! PROOFS. The selection of a condition among those considered, and its acknowledgement (R160 to R162): O54. -/

namespace Sys2Proof.Machine

section Selection

variable {s : State} {w : Settings} {x y : Subject × Condition} {L before after : List (Subject × Condition)}

/-! ### The selection (R160) -/

theorem Settings.outranks_iff (w : Settings) (a b : Condition) : w.outranks a b = true ↔
    w.priority b.cls < w.priority a.cls ∨ (w.priority a.cls = w.priority b.cls ∧ a.mark < b.mark) := by
  simp [Settings.outranks]

theorem Settings.mem_of_select (chosen : w.select L = some y) : y ∈ L := by
  induction L with
  | nil => cases chosen
  | cons x t ih =>
    cases rest : w.select t with
    | none =>
      rw [Settings.select, rest] at chosen
      exact List.mem_cons.mpr (.inl (Option.some.inj chosen).symm)
    | some z =>
      rw [Settings.select, rest] at chosen
      simp only at chosen
      split at chosen
      · exact List.mem_cons_of_mem _ (ih (rest.trans chosen))
      · exact List.mem_cons.mpr (.inl (Option.some.inj chosen).symm)

/-- A condition at the front is chosen where none after it outranks it (R160, steps 3 and 4). -/
theorem Settings.select_cons (first : ∀ y ∈ L, w.outranks y.2 x.2 = false) : w.select (x :: L) = some x := by
  cases rest : w.select L with
  | none => rw [Settings.select, rest]
  | some z =>
    rw [Settings.select, rest]
    exact if_neg (Bool.eq_false_iff.mp (first z (Settings.mem_of_select rest)))

/-- The condition that outranks those before it, and that none after it outranks, is chosen. -/
theorem Settings.select_of (first : ∀ y ∈ before, w.outranks x.2 y.2 = true)
    (last : ∀ y ∈ after, w.outranks y.2 x.2 = false) : w.select (before ++ x :: after) = some x := by
  induction before with
  | nil => exact Settings.select_cons last
  | cons y t ih =>
    have rest := ih fun z among => first z (List.mem_cons_of_mem _ among)
    rw [List.cons_append, Settings.select, rest]
    exact if_pos (first y List.mem_cons_self)

/-! ### Reading back an acknowledgement (R154, R157) -/

variable {subject : Subject} {cls : Class} {c : Condition}

theorem State.exists_of_find (held : (s.condsOf subject).find cls = some c) : s.subjectExists subject = true := by
  cases subject with
  | timeBase | link | line => rfl
  | object n =>
    cases stored : s.object n with
    | none => simp [State.condsOf, stored, CondSet.find] at held
    | some r => rw [State.subjectExists, stored]; rfl
  | path n =>
    cases stored : s.path n with
    | none => simp [State.condsOf, stored, CondSet.find] at held
    | some p => rw [State.subjectExists, stored]; rfl

theorem State.condsOf_setConds (present : s.subjectExists subject = true) (cs : CondSet) :
    (s.setConds subject cs).condsOf subject = cs := by
  cases subject with
  | timeBase => rfl
  | link i => rw [State.setConds_link, State.condsOf_link, State.link_setLink_self]
  | line i => rw [State.setConds_line, State.condsOf_line, State.line_setLine_self]
  | object n =>
    obtain ⟨r, stored⟩ := Option.isSome_iff_exists.mp present
    rw [State.setConds_object _ stored, State.condsOf_object _ (r := { r with conds := cs })]
    rw [State.object_report, State.object_setObject_self]
  | path n =>
    obtain ⟨p, stored⟩ := Option.isSome_iff_exists.mp present
    rw [State.setConds_path _ stored, State.condsOf_path _ (p := { p with conds := cs })]
    exact Store.get_set_self ..

/-- The state after the acknowledgement of an unacknowledged condition: ACTIVE_ACK, or absent (R154). -/
theorem State.stateOf_acknowledge (held : (s.condsOf subject).find cls = some c) (unack : c.state ≠ .activeAck) :
    ((s.acknowledge subject cls).condsOf subject).stateOf cls =
      if c.state = .activeUnack then some CondState.activeAck else none := by
  rw [State.acknowledge, State.condsOf_setConds (State.exists_of_find held), CondSet.stateOf,
    CondSet.find_acknowledged, held, Option.bind_some]
  cases state : c.state with
  | activeUnack => rfl
  | activeAck => exact absurd state unack
  | clearUnack => rfl

/-! ### The requests -/

/-- The conditions considered are those of the obligation's reading, whatever decides it. -/
theorem State.considered_eq {P : Subject × Condition → Prop} [DecidablePred P]
    (reads : ∀ x, P x ↔ x.2.state ≠ .activeAck ∧ 1 ≤ s.settings.priority x.2.cls) :
    s.considered = s.conditions.filter fun x => decide (P x) :=
  congrArg (List.filter · s.conditions) (funext fun x =>
    Bool.eq_iff_iff.mpr ((s.settings.calls_iff x.2).trans ((reads x).symm.trans decide_eq_true_iff.symm)))

theorem serveNextCondition_none {body : List Byte} (none : s.considered = []) :
    serveNextCondition body s = .same s .noSuch .none := by
  rw [serveNextCondition, none]
  rfl

theorem serveNextCondition_of {body : List Byte} (chosen : s.settings.select s.considered = some (subject, c)) :
    serveNextCondition body s =
      if (byteAt body 0).toNat = 1 then ⟨s.acknowledge subject c.cls, .ok, .condition (s.conditionView subject c)
        (s.considered.length - 1) (some (((s.acknowledge subject c.cls).condsOf subject).stateOf c.cls))⟩
      else .same s .ok (.condition (s.conditionView subject c) (s.considered.length - 1) none) := by
  rw [serveNextCondition, chosen]

/-- What a kind and a number must be to name a subject (R162, step 1). -/
def SubjectNamed (kind number : Nat) : Prop :=
  (kind = 0 ∧ number = 0) ∨ (kind = 1 ∧ number ≤ 3) ∨ (kind = 2 ∧ number ≤ 3) ∨
    (kind = 3 ∧ 1 ≤ number ∧ number ≤ 4095) ∨ (kind = 4 ∧ 1 ≤ number)

theorem subjectOf_unnamed {kind number : Nat} (unnamed : ¬ SubjectNamed kind number) : subjectOf kind number = none := by
  refine subjectOf_none ?_
  unfold SubjectNamed at unnamed
  omega

theorem subjectOf_named (named : SubjectNamed subject.kindCode subject.number) (wide : subject.number ≤ 65535) :
    subjectOf subject.kindCode subject.number = some subject := by
  cases subject with
  | timeBase => rfl
  | link i => exact subjectOf_link i
  | line i => exact subjectOf_line i
  | object n =>
    have range : 1 ≤ n ∧ n ≤ 4095 := by
      simp only [SubjectNamed, Subject.kindCode, Subject.number] at named
      omega
    exact subjectOf_object range
  | path n =>
    have range : 1 ≤ n := by
      simp only [SubjectNamed, Subject.kindCode, Subject.number] at named
      omega
    exact subjectOf_path ⟨range, wide⟩

variable {body : List Byte}

theorem ackFields_none (out : ¬ SubjectNamed (byteAt body 0).toNat (field body 1 2) ∨
    Class.ofCode (byteAt body 3).toNat = none) : ackFields body = none := by
  rcases out with unnamed | unknown
  · rw [ackFields, subjectOf_unnamed unnamed]
  · rw [ackFields, unknown]
    cases subjectOf (byteAt body 0).toNat (field body 1 2) <;> rfl

theorem ackFields_of (named : SubjectNamed (byteAt body 0).toNat (field body 1 2))
    (kind : subject.kindCode = (byteAt body 0).toNat) (number : subject.number = field body 1 2)
    (known : Class.ofCode (byteAt body 3).toNat = some cls) :
    ackFields body = if cls.subjectCode = (byteAt body 0).toNat then some (subject, cls) else none := by
  have wide : subject.number ≤ 65535 := number.trans_le (field_two_le body 1)
  rw [← kind, ← number] at named
  rw [ackFields, ← kind, ← number, subjectOf_named named wide, known]

theorem serveAckCondition_out (out : ackFields body = none) :
    serveAckCondition body s = .same s .outOfRange .none := by
  rw [serveAckCondition, out]

theorem serveAckCondition_absent (names : ackFields body = some (subject, cls))
    (absent : s.subjectExists subject = false) : serveAckCondition body s = .same s .noSuch .none := by
  rw [serveAckCondition, names]
  exact if_pos (by rw [absent]; rfl)

theorem serveAckCondition_missing (names : ackFields body = some (subject, cls))
    (missing : (s.condsOf subject).find cls = none) : serveAckCondition body s = .same s .noSuch .none := by
  rw [serveAckCondition, names]
  simp only [missing, ite_self]

theorem serveAckCondition_of (names : ackFields body = some (subject, cls))
    (held : (s.condsOf subject).find cls = some c) : serveAckCondition body s =
      if (c.state.unack && ackMarkOk body c) = true then
        ⟨s.acknowledge subject cls, .ok,
          .acknowledged (((s.acknowledge subject cls).condsOf subject).stateOf cls)⟩
      else .same s .noSuch .none := by
  rw [serveAckCondition, names]
  simp only [held, State.exists_of_find held, Bool.not_true, Bool.false_eq_true, if_false]

theorem ackMarkOk_iff : ackMarkOk body c = true ↔ ¬ (byteAt body 4).toNat ≠ 0 ∨ field body 5 6 = c.mark := by
  simp [ackMarkOk]

end Selection

/-- Settles O54: the chosen condition outranks those before it and none after it outranks it; an acknowledgement leaves
ACTIVE_ACK or nothing. -/
theorem conditionsAreSelectedAndAcknowledged : Obligations.ConditionsAreSelectedAndAcknowledged := by
  unfold Obligations.ConditionsAreSelectedAndAcknowledged
  refine ⟨fun f s admits => ?_, fun f s admits => ?_⟩
  · intro considered
    have considers : s.considered = s.conditions.filter fun x => decide (considered x) :=
      State.considered_eq fun _ => Iff.rfl
    refine ⟨fun none => ?_, fun before subject c after conditions isConsidered first last => ?_⟩
    · refine State.exec_replies admits rfl (serveNextCondition_none ?_)
      rw [considers, List.filter_eq_nil_iff]
      exact fun x among => by simpa using none x among
    · intro others view state
      have split : s.considered = (before.filter fun x => decide (considered x)) ++
          (subject, c) :: after.filter fun x => decide (considered x) := by
        rw [considers, conditions, List.filter_append, List.filter_cons_of_pos (by simpa using isConsidered)]
      have chosen : s.settings.select s.considered = some (subject, c) := by
        rw [split]
        refine Settings.select_of (fun y among => ?_) fun y among => Bool.eq_false_iff.mpr fun outranks => ?_
        · obtain ⟨inside, calls⟩ := List.mem_filter.mp among
          have ranks := first y inside (of_decide_eq_true calls)
          exact (s.settings.outranks_iff _ _).mpr (ranks.imp_right (And.imp_left Eq.symm))
        · obtain ⟨inside, calls⟩ := List.mem_filter.mp among
          have ranks := last y inside (of_decide_eq_true calls)
          have outranks := (s.settings.outranks_iff _ _).mp outranks
          dsimp only at outranks
          omega
      have count : s.considered.length - 1 = others := by
        simp only [others, split, List.filter_append, List.length_append, List.length_cons]
        omega
      have serves := serveNextCondition_of (body := f.body) chosen
      rw [count] at serves
      refine ⟨fun read => ?_, fun acknowledge held => ?_⟩
      · exact State.exec_replies admits rfl (serves.trans (if_neg (by omega)))
      · rw [if_pos acknowledge, State.stateOf_acknowledge held isConsidered.1] at serves
        exact State.exec_served admits rfl serves
  · intro kind number code marked mark named
    refine ⟨fun out => State.exec_replies admits rfl (serveAckCondition_out (ackFields_none out)), ?_⟩
    intro subject c isNamed hasKind hasNumber known absent
    have fields := ackFields_of isNamed hasKind hasNumber known
    refine ⟨fun other => ?_, fun own gone => ?_, fun x own held => ?_⟩
    · exact State.exec_replies admits rfl (serveAckCondition_out (fields.trans (if_neg other)))
    · have names := fields.trans (if_pos own)
      refine State.exec_replies admits rfl ?_
      rcases gone with (⟨n, rfl, empty⟩ | ⟨n, rfl, empty⟩) | missing
      · exact serveAckCondition_absent names (by rw [State.subjectExists, empty]; rfl)
      · exact serveAckCondition_absent names (by rw [State.subjectExists, empty]; rfl)
      · exact serveAckCondition_missing names missing
    · have serves := serveAckCondition_of (fields.trans (if_pos own)) held
      refine ⟨fun stands => ?_, fun unack agrees => ?_⟩
      · refine State.exec_replies admits rfl (serves.trans (if_neg ?_))
        rw [Bool.and_eq_true, CondState.unack_eq, decide_eq_true_iff, ackMarkOk_iff]
        rintro ⟨unack, agrees⟩
        rcases stands with acknowledged | ⟨given, differs⟩
        · exact unack acknowledged
        · exact agrees.elim (absurd given) differs
      · rw [State.stateOf_acknowledge held unack, if_pos (by
          rw [Bool.and_eq_true, CondState.unack_eq, decide_eq_true_iff, ackMarkOk_iff]
          exact ⟨unack, agrees⟩)] at serves
        exact State.exec_served admits rfl serves

end Sys2Proof.Machine
end

section
/-! PROOFS. The watch slots: setting one, and reading all of them at one moment or each in an event of its own (R176,
R178): O55. -/

namespace Sys2Proof.Machine

section Watch

variable {s : State} {f : ReqFrame} {body : List Byte} {slot k : Fin 16} {w : Watched} {kind number : Nat}

/-! ### SET WATCH (R176) -/

/-- What a kind and a number must be to name a subject to watch, or none (R176). -/
def WatchNamed (kind number : Nat) : Prop :=
  kind = 0 ∨ (kind = 3 ∧ 1 ≤ number ∧ number ≤ 4095) ∨ (kind = 4 ∧ 1 ≤ number)

theorem watchedOf_unnamed (unnamed : ¬ WatchNamed kind number) : watchedOf kind number = none := by
  unfold WatchNamed at unnamed
  match kind with
  | 0 => omega
  | 1 | 2 => rfl
  | 3 => exact if_neg (by omega)
  | 4 => exact if_neg (by omega)
  | _ + 5 => rfl

theorem watchedOf_object (named : WatchNamed 3 number) : watchedOf 3 number = some (.object number) := by
  unfold WatchNamed at named
  exact if_pos (by omega)

theorem watchedOf_path (named : WatchNamed 4 number) (wide : number ≤ 65535) :
    watchedOf 4 number = some (.path number) := by
  unfold WatchNamed at named
  exact if_pos (by omega)

theorem serveSetWatch_out (out : 16 ≤ (byteAt body 0).toNat ∨ ¬ WatchNamed (byteAt body 1).toNat (field body 2 2)) :
    serveSetWatch body s = .same s .outOfRange .none := by
  by_cases inside : (byteAt body 0).toNat < 16
  · rw [serveSetWatch, dif_pos inside, watchedOf_unnamed (out.resolve_left (by omega))]
  · exact dif_neg inside

theorem serveSetWatch_of (at_slot : (byteAt body 0).toNat = slot.val)
    (names : watchedOf (byteAt body 1).toNat (field body 2 2) = some w) : serveSetWatch body s =
      if s.watchable w = true then ⟨s.setWatch slot w, .ok, .summary (s.summaryOf w)⟩ else .same s .noSuch .none := by
  have inside : (byteAt body 0).toNat < 16 := at_slot ▸ slot.isLt
  have same : (⟨(byteAt body 0).toNat, inside⟩ : Fin 16) = slot := Fin.ext at_slot
  rw [serveSetWatch, dif_pos inside, names, same]

/-! ### READ WATCH (R178) -/

theorem State.slotViews_length (s : State) : (s.watch.val.map s.slotView).length = 16 :=
  (List.length_map ..).trans s.watch.property

theorem State.slotViews_get (s : State) (k : Fin 16) :
    (s.watch.val.map s.slotView)[k.val]? = some (s.slotView (s.watch.get k)) := by
  have inside : k.val < s.watch.val.length := s.watch.property.symm ▸ k.isLt
  rw [List.getElem?_map, List.getElem?_eq_getElem inside]
  rfl

/-- A slot taken, and the slots still to take: the next one's turn (R178). -/
theorem State.askSlot_more {next : Fin 16} (taken : List WatchView) (follows : next.val = k.val + 1) :
    s.askSlot taken k = .more { s with watch := s.watch.set k (s.watch.get k).read }
      (.watch (taken ++ [s.slotView (s.watch.get k)]) next) := by
  have more : k.val + 1 < 16 := follows ▸ next.isLt
  have same : (⟨k.val + 1, more⟩ : Fin 16) = next := Fin.ext follows.symm
  rw [State.askSlot, dif_pos more, same]

theorem State.askSlot_last (taken : List WatchView) (last : k.val = 15) : s.askSlot taken k =
    .last ⟨{ s with watch := s.watch.set k (s.watch.get k).read }, .ok,
      .watch (taken ++ [s.slotView (s.watch.get k)])⟩ :=
  dif_neg (by omega)

/-- One event of READ WATCH in work: the slot is taken, and the next one or the response follows (R178). -/
theorem State.takes_slot {taken : List WatchView} {lost : Bool} {slots : List WatchView}
    (asks : exec (.readWatch f) s = (s.askNext (collect f.toFrame) lost (.watch taken k)).answer)
    (takes : taken ++ [s.slotView (s.watch.get k)] = slots) :
    (∀ next : Fin 16, next.val = k.val + 1 → exec (.readWatch f) s = .next { s with
      watch := s.watch.set k { s.watch.get k with changed := false, retired := none }
      sl := { s.sl with
        transaction := .inWork (.gathering (collect f.toFrame) (.watch slots next)) lost } }.settle) ∧
    (k.val = 15 → exec (.readWatch f) s = .next { s with
      watch := s.watch.set k { s.watch.get k with changed := false, retired := none }
      sl := { s.sl with
        transaction := .pending ⟨0x61, f.tag, .ok, lost, .watch slots⟩ } }.settle) := by
  subst takes
  refine ⟨fun next follows => ?_, fun last => ?_⟩
  · rw [asks, State.askNext, Gathered.ask, State.askSlot_more taken follows]
    rfl
  · rw [asks, State.askNext, Gathered.ask, State.askSlot_last taken last]
    rfl

end Watch

/-- Settles O55: the checks of SET WATCH; READ WATCH at one moment gives each slot as it stands, and in work takes one
slot in each event. -/
theorem watchSlotsAreSetAndRead : Obligations.WatchSlotsAreSetAndRead := by
  unfold Obligations.WatchSlotsAreSetAndRead
  refine fun f s => ⟨fun admits => ?_, fun admits => ?_, fun lost held service ok => ?_⟩
  · intro kind n named
    refine ⟨fun out => State.exec_replies admits rfl (serveSetWatch_out out), fun slot at_slot => ?_⟩
    have wide : n ≤ 65535 := field_two_le f.body 2
    have object : named → kind = 3 → watchedOf kind n = some (.object n) := fun isNamed isObject => by
      rw [isObject]
      exact watchedOf_object (isObject ▸ isNamed)
    have path : named → kind = 4 → watchedOf kind n = some (.path n) := fun isNamed isPath => by
      rw [isPath]
      exact watchedOf_path (isPath ▸ isNamed) wide
    intro taken
    refine ⟨fun none => ?_, fun isNamed isObject empty => ?_, fun isNamed isPath empty => ?_,
      fun r isNamed isObject stored => ?_, fun p isNamed isPath stored => ?_⟩
    · have names : watchedOf kind n = some .none := by rw [none]; rfl
      exact State.exec_served admits rfl (serveSetWatch_of at_slot names)
    · have missing : ¬ s.watchable (.object n) = true := by rw [State.watchable, empty]; exact Bool.false_ne_true
      exact State.exec_replies admits rfl ((serveSetWatch_of at_slot (object isNamed isObject)).trans (if_neg missing))
    · have missing : ¬ s.watchable (.path n) = true := by rw [State.watchable, empty]; exact Bool.false_ne_true
      exact State.exec_replies admits rfl ((serveSetWatch_of at_slot (path isNamed isPath)).trans (if_neg missing))
    · have present : s.watchable (.object n) = true := by rw [State.watchable, stored]; rfl
      have sets := (serveSetWatch_of at_slot (object isNamed isObject)).trans (if_pos present)
      rw [State.summaryOf, stored] at sets
      exact State.exec_served admits rfl sets
    · have present : s.watchable (.path n) = true := by rw [State.watchable, stored]; rfl
      have sets := (serveSetWatch_of at_slot (path isNamed isPath)).trans (if_pos present)
      rw [State.summaryOf, stored] at sets
      exact State.exec_served admits rfl sets
  · refine ⟨_, State.exec_served admits (congrArg State.answer (State.requestInTurn_admitted ?_)) rfl,
      s.slotViews_length, fun k => ?_⟩
    · obtain ⟨whole, -⟩ := admits
      rw [whole]
      exact fun service => by cases service
    · rw [s.slotViews_get k]
      refine ⟨rfl, fun none => ?_, fun n r subject stored => ?_, fun n p subject stored => ?_⟩
      · simp [State.slotView, none, State.summaryOf]
      · simp [State.slotView, subject, State.summaryOf, stored]
      · simp [State.slotView, subject, State.summaryOf, stored]
  · intro takes
    have gives : ∀ taken (k : Fin 16), taken ++ [s.slotView (s.watch.get k)] = taken ++ [⟨s.watch.get k,
        match (s.watch.get k).subject with
        | .none => none
        | .object n => (s.object n).map fun r => Summary.object (r.summary n)
        | .path n => (s.path n).map fun p => Summary.path (p.summary n)⟩] := fun taken k =>
      congrArg (fun summary => taken ++ [⟨s.watch.get k, summary⟩]) (by cases (s.watch.get k).subject <;> rfl)
    refine ⟨fun inWork => ?_, fun taken k inWork => ?_⟩
    · exact State.takes_slot (congrArg State.answer (State.requestInTurn_first service held inWork ok)) (gives [] 0)
    · exact State.takes_slot (congrArg State.answer (State.requestInTurn_next service held inWork rfl)) (gives taken k)

end Sys2Proof.Machine
end

section
/-! PROOFS. GET STATUS at one moment and owner by owner, the edit fault latch, and the capture (R39, R173, R175, R179):
O56. -/

namespace Sys2Proof.Machine

section Status

variable {s : State} {f : ReqFrame} {body : List Byte} {i : Fin 4}

/-! ### The completion-unread flag (R173, R179) -/

/-- The slot after the body of a status is formed, by the slot the body gives and the one present. -/
def Slot.statusRead (taken present : Slot) : Slot :=
  match taken with
  | .empty => present
  | .inFlight _ _ _ => present
  | .done _ => present.read

theorem State.statusRead_eq (s : State) (taken : Slot) :
    s.statusRead taken = { s with sl := { s.sl with slot := taken.statusRead s.sl.slot } } := by
  cases taken <;> rfl

theorem Slot.statusRead_self (x : Slot) : x.statusRead x = x.read := by cases x <;> rfl

/-! ### The owners in their turn (R179) -/

/-- An owner that is not the last gives its items, and the next one's turn follows. -/
theorem State.asks_status {v items : StatusView} {owner next : StatusOwner} {lost : Bool}
    (asks : exec (.getStatus f) s = (s.askNext (collect f.toFrame) lost (.status v owner)).answer)
    (gives : s.askStatus v owner = .more s (.status items next)) : exec (.getStatus f) s = .next { s with
      sl := { s.sl with
        transaction := .inWork (.gathering (collect f.toFrame) (.status items next)) lost } }.settle := by
  rw [asks, State.askNext, Gathered.ask, gives]
  rfl

/-- The Time Base gives the last items, and the response is ready. -/
theorem State.asks_timeBase {v : StatusView} {lost : Bool}
    (asks : exec (.getStatus f) s = (s.askNext (collect f.toFrame) lost (.status v .timeBase)).answer) :
    exec (.getStatus f) s = .next { s with
      sl := { s.sl with
        slot := v.slot.statusRead s.sl.slot
        transaction := .pending ⟨0x62, f.tag, .ok, lost,
          .status { v with discipline := s.tb.discipline, timeValid := s.tb.timeValid }⟩ } }.settle := by
  rw [asks, State.askNext, Gathered.ask, State.askStatus, State.statusRead_eq]
  rfl

theorem serveUnlockCapture_of (at_i : (byteAt body 0).toNat = i.val) : serveUnlockCapture body s =
    ⟨s.setLink i { s.link i with capture := none, further := false }, .ok, .none⟩ := by
  rw [serveUnlockCapture, linkOf_eq at_i]
  rfl

end Status

/-- Settles O56: the status with every owner asked at one moment, then owner by owner; the latch and the capture
emptied. -/
theorem statusLatchAndCaptureAreServed : Obligations.StatusLatchAndCaptureAreServed := by
  unfold Obligations.StatusLatchAndCaptureAreServed
  refine fun f s => ⟨fun admits => ?_, fun lost held service ok => ?_, fun admits => State.exec_served admits rfl rfl,
    fun admits => ⟨fun out => State.exec_replies admits rfl ?_, fun i at_i =>
      State.exec_served admits rfl (serveUnlockCapture_of at_i)⟩⟩
  · have written : f.phase ≠ .service := by
      obtain ⟨whole, -⟩ := admits
      rw [whole]
      exact fun service => by cases service
    have reads : (match s.sl.slot with
        | .done c => Slot.done { c with unread := false }
        | .empty => .empty
        | .inFlight kind tag accepted => .inFlight kind tag accepted) = s.sl.slot.statusRead s.sl.slot := by
      cases s.sl.slot <;> rfl
    have serves : serveGetStatus s = ⟨{ s with sl := { s.sl with slot := match s.sl.slot with
        | .done c => .done { c with unread := false }
        | .empty => .empty
        | .inFlight kind tag accepted => .inFlight kind tag accepted } }, .ok, .status s.statusView⟩ := by
      rw [reads, ← State.statusRead_eq] <;> rfl
    exact State.exec_served admits (congrArg State.answer (State.requestInTurn_admitted written)) serves
  · refine ⟨fun inWork => ?_, fun v owner inWork => ?_⟩
    · have asks : exec (.getStatus f) s =
          (s.askNext (collect f.toFrame) lost (.status s.statusView .serviceLink)).answer :=
        congrArg State.answer (State.requestInTurn_first service held inWork ok)
      exact ⟨_, State.asks_status asks rfl, rfl, rfl, rfl, rfl, rfl⟩
    · have asks : exec (.getStatus f) s = (s.askNext (collect f.toFrame) lost (.status v owner)).answer :=
        congrArg State.answer (State.requestInTurn_next service held inWork rfl)
      refine ⟨?_, ?_, ?_, ?_, ?_, ?_⟩ <;> rintro rfl
      · exact State.asks_status asks rfl
      · exact State.asks_status asks rfl
      · exact State.asks_status asks rfl
      · exact State.asks_status asks rfl
      · exact State.asks_status asks rfl
      · have reads : (match v.slot, s.sl.slot with
            | .done _, .done c => Slot.done { c with unread := false }
            | _, present => present) = v.slot.statusRead s.sl.slot := by
          cases v.slot <;> cases s.sl.slot <;> rfl
        exact (State.asks_timeBase asks).trans (by rw [← reads] <;> rfl)
  · rw [serveUnlockCapture, linkOf_none out]

end Sys2Proof.Machine
end

section
/-! PROOFS. SET SETTING, the table of the settings, and the reading of each working setting (R181, R182; Table 10-1):
O57. -/

namespace Sys2Proof.Machine

section SetSetting

variable {s : State} {f : ReqFrame} {body : List Byte} {item : SettingItem}

/-! ### The request (R182) -/

/-- A value written, and handed over where it differs (R182). -/
theorem State.exec_setSetting {n : Nat} {x : Int} {status : Status} (admits : s.admits .setSetting f)
    (serves : serveSetSetting f.body s = ⟨s.setSetting item n x, status, .value x⟩) :
    (s.settings.read item n = x → s.repliesOnly .setSetting f status (.value x)) ∧
    (s.settings.read item n ≠ x → exec (.setSetting f) s =
      .next ((({ s with settings := s.settings.write item n x }).handOver item n).withReply .setSetting f status
        (.value x)).settle) := by
  refine ⟨fun same => State.exec_replies admits rfl ?_, fun differs => State.exec_served admits rfl ?_⟩
  · rw [serves, State.setSetting, if_pos same]
    rfl
  · rw [serves, State.setSetting, if_neg differs]

variable (known : SettingItem.ofCode (byteAt body 0).toNat = some item)
include known

theorem serveSetSetting_number (out : (byteAt body 1).toNat ∉ item.numbers) :
    serveSetSetting body s = .same s .outOfRange .none := by
  simp only [serveSetSetting, known]
  exact if_pos (by simpa using out)

theorem serveSetSetting_within (number : (byteAt body 1).toNat ∈ item.numbers)
    (within : item.range.1 ≤ signed16 (field body 2 2) ∧ signed16 (field body 2 2) ≤ item.range.2) :
    serveSetSetting body s = ⟨s.setSetting item (byteAt body 1).toNat (signed16 (field body 2 2)), .ok,
      .value (signed16 (field body 2 2))⟩ := by
  simp only [serveSetSetting, known]
  rw [if_neg (by simpa using number), if_pos ((item.inRange_iff _).mpr within)]

theorem serveSetSetting_named (number : (byteAt body 1).toNat ∈ item.numbers)
    (out : ¬ (item.range.1 ≤ signed16 (field body 2 2) ∧ signed16 (field body 2 2) ≤ item.range.2))
    (named : item.named = true) : serveSetSetting body s = .same s .outOfRange .none := by
  simp only [serveSetSetting, known]
  rw [if_neg (by simpa using number), if_neg (mt (item.inRange_iff _).mp out), if_pos named]

theorem serveSetSetting_clamped {x : Int} (number : (byteAt body 1).toNat ∈ item.numbers)
    (out : ¬ (item.range.1 ≤ signed16 (field body 2 2) ∧ signed16 (field body 2 2) ≤ item.range.2))
    (numeric : item.named = false) (clamps : item.clamp (signed16 (field body 2 2)) = x) :
    serveSetSetting body s = ⟨s.setSetting item (byteAt body 1).toNat x, .clamped, .value x⟩ := by
  simp only [serveSetSetting, known]
  rw [if_neg (by simpa using number), if_neg (mt (item.inRange_iff _).mp out), if_neg (Bool.eq_false_iff.mp numeric),
    clamps]

end SetSetting

/-! ### The table (Table 10-1, Table 8-2, 11.5) -/

theorem SettingItem.ofCode_eq_none_iff (code : Nat) : SettingItem.ofCode code = none ↔ code = 0 ∨ 17 < code := by
  have listed : ∀ code : Fin 18, SettingItem.ofCode code.val = none ↔ code.val = 0 := by decide
  by_cases small : code < 18
  · exact (listed ⟨code, small⟩).trans (by simp only; omega)
  · obtain ⟨k, rfl⟩ : ∃ k, code = k + 18 := ⟨code - 18, by omega⟩
    exact iff_of_true rfl (by omega)

/-- A row of Table 10-1: the numbers, the range, whether the values are named, and the defaults. -/
def SettingItem.row (item : SettingItem) : List Nat × Int × Int × Bool × List Int :=
  (item.numbers, item.range.1, item.range.2, item.named, item.numbers.map (Settings.default.read item))

theorem SettingItem.ofCode_succ (k : Fin 17) : SettingItem.ofCode (k.val + 1) = SettingItem.all[k.val]? := by
  revert k
  decide

/-! ### The reading of each setting -/

section Read

variable (w : Settings)

theorem Settings.inRange_iff : w.inRange = true ↔ ∀ item : SettingItem, ∀ n ∈ item.numbers,
    item.range.1 ≤ w.read item n ∧ w.read item n ≤ item.range.2 := by
  rw [Settings.inRange, List.all_eq_true]
  exact ⟨fun every item n number => (item.inRange_iff _).mp (every (item, n) (mem_settingPlaces.mpr number)),
    fun every p among => (p.1.inRange_iff _).mpr (every p.1 p.2 (mem_settingPlaces.mp among))⟩

theorem index21_succ (k : Fin 21) : index21 (k.val + 1) = k := Fin.ext (Nat.mod_eq_of_lt k.isLt)

theorem Settings.read_link_line (i : Fin 4) :
    w.read .linkEnable i = (if w.linkEnable.get i = true then 1 else 0) ∧
    w.read .linkLatency i = w.linkLatency.get i ∧ w.read .silenceLimit i = w.silenceLimit.get i ∧
    w.read .lineEnable i = (if w.lineEnable.get i = true then 1 else 0) ∧
    w.read .dialKind i = (if w.dialKind.get i = .halfMinute then 1 else 0) ∧
    w.read .impulseWidth i = w.impulseWidth.get i ∧ w.read .gap i = w.gap.get i ∧
    w.read .holdWindow i = w.holdWindow.get i := by
  have kind : (w.dialKind.get i).code = if w.dialKind.get i = .halfMinute then 1 else 0 := by
    cases w.dialKind.get i <;> rfl
  simp only [Settings.read, index4_val, kind, true_and, and_true]
  exact ⟨rfl, rfl, by split <;> rfl⟩

theorem Settings.read_class (k : Fin 21) : w.read .classPriority (k + 1) = w.classPriority.get k ∧
    w.read .classLine (k + 1) = if w.classLine.get k = .urgent then 1 else 2 := by
  simp only [Settings.read, index21_succ, true_and]
  cases w.classLine.get k <;> rfl

end Read

/-- Settles O57: the checks of SET SETTING in their order, the rows of Table 10-1, and reading after writing. -/
theorem setSettingWritesOneSetting : Obligations.SetSettingWritesOneSetting := by
  unfold Obligations.SetSettingWritesOneSetting
  refine ⟨fun f s admits => ?_, ?_, fun w => ?_, fun w item n v number low high => ?_⟩
  · intro n v
    refine ⟨fun unknown => State.exec_replies admits rfl ?_, fun item known => ?_⟩
    · rw [serveSetSetting, unknown]
    · intro applied within
      refine ⟨fun out => State.exec_replies admits rfl (serveSetSetting_number known out),
        fun number out named => State.exec_replies admits rfl (serveSetSetting_named known number out named),
        fun number inside => State.exec_setSetting admits (serveSetSetting_within known number inside),
        fun number below numeric => ?_, fun number above numeric => ?_⟩
      · have out : ¬ within := fun inside => absurd inside.1 (Int.not_le.mpr below)
        exact State.exec_setSetting admits (serveSetSetting_clamped known number out numeric (if_pos below))
      · have out : ¬ within := fun inside => absurd inside.2 (Int.not_le.mpr above)
        have ordered : item.range.1 ≤ item.range.2 := by cases item <;> decide
        have notBelow : ¬ v < item.range.1 := by omega
        exact State.exec_setSetting admits
          (serveSetSetting_clamped known number out numeric ((if_neg notBelow).trans (if_pos above)))
  · intro one4 classes table
    have rows : table = SettingItem.all.map SettingItem.row := by decide
    refine ⟨SettingItem.ofCode_eq_none_iff, fun k numbers low high named defaults at_k => ?_⟩
    rw [rows, List.getElem?_map, Option.map_eq_some_iff] at at_k
    obtain ⟨item, listed, row⟩ := at_k
    simp only [SettingItem.row, Prod.mk.injEq] at row
    obtain ⟨isNumbers, isLow, isHigh, isNamed, isDefaults⟩ := row
    refine ⟨item, (SettingItem.ofCode_succ k).trans listed, isNumbers, Prod.ext isLow isHigh, isNamed, ?_⟩
    rw [← isNumbers, isDefaults]
  · exact ⟨w.inRange_iff, rfl, rfl, rfl, rfl, rfl, rfl, rfl, w.read_link_line, w.read_class⟩
  · exact ⟨w.read_write_self item n ((item.inRange_iff v).mpr ⟨low, high⟩),
      fun other k isOther differs => w.read_write_ne v number isOther differs⟩

end Sys2Proof.Machine
end

section
/-! PROOFS. The save of the settings and its end, and the load of a saved copy (R172, R184, R185): O58. -/

namespace Sys2Proof.Machine

section Load

variable {v w : Settings} {item : SettingItem} {n : Nat}

/-! ### Settings that read alike -/

theorem boolCode_injective {a b : Bool} (same : boolCode a = boolCode b) : a = b := by
  revert same
  cases a <;> cases b <;> decide

theorem DialKind.code_injective {a b : DialKind} (same : a.code = b.code) : a = b := by
  revert same
  cases a <;> cases b <;> decide

theorem Routing.code_injective {a b : Routing} (same : a.code = b.code) : a = b := by
  revert same
  cases a <;> cases b <;> decide

/-- The working settings are what their places read. -/
theorem Settings.ext_read (same : ∀ item : SettingItem, ∀ n ∈ item.numbers, v.read item n = w.read item n) : v = w := by
  have one : ∀ {item : SettingItem}, item.numbers = [0] → v.read item 0 = w.read item 0 := fun {item} only =>
    same item 0 (only ▸ List.mem_singleton_self 0)
  have four : ∀ {item : SettingItem}, item.numbers = [0, 1, 2, 3] → ∀ i : Fin 4, v.read item i = w.read item i :=
    fun {item} indexed i => same item i (indexed ▸ by revert i; decide)
  have classes : ∀ {item : SettingItem}, item.numbers = SettingItem.classLine.numbers → ∀ k : Fin 21,
      v.read item (k.val + 1) = w.read item (k.val + 1) :=
    fun {item} indexed k => same item (k.val + 1) (indexed ▸ by revert k; decide)
  have enabled := four (item := .linkEnable) rfl
  have latency := four (item := .linkLatency) rfl
  have silence := four (item := .silenceLimit) rfl
  have lines := four (item := .lineEnable) rfl
  have kinds := four (item := .dialKind) rfl
  have widths := four (item := .impulseWidth) rfl
  have gaps := four (item := .gap) rfl
  have windows := four (item := .holdWindow) rfl
  have priorities := classes (item := .classPriority) rfl
  have routings := classes (item := .classLine) rfl
  simp only [Settings.read, index4_val, Nat.cast_inj] at enabled latency silence lines kinds widths gaps windows
  simp only [Settings.read, index21_succ, Nat.cast_inj] at priorities routings
  cases v
  cases w
  congr 1
  · exact one (item := .boundaryHour) rfl
  · exact one (item := .civilOffset) rfl
  · exact one (item := .holdoverLimit) rfl
  · exact Vec.ext_get fun i => boolCode_injective (enabled i)
  · exact Vec.ext_get latency
  · exact Vec.ext_get silence
  · exact one (item := .lostLimit) rfl
  · exact one (item := .armingLead) rfl
  · exact one (item := .retention) rfl
  · exact Vec.ext_get fun i => boolCode_injective (lines i)
  · exact Vec.ext_get fun i => DialKind.code_injective (kinds i)
  · exact Vec.ext_get widths
  · exact Vec.ext_get gaps
  · exact Vec.ext_get windows
  · exact Vec.ext_get priorities
  · exact Vec.ext_get fun k => Routing.code_injective (routings k)
  · exact boolCode_injective (one (item := .watchAttention) rfl)

/-! ### An image written back (R185) -/

theorem foldl_zip_map {α β γ : Type} (f : γ → α × β → γ) (g : α → β) (L : List α) (a : γ) :
    (L.zip (L.map g)).foldl f a = L.foldl (fun a x => f a (x, g x)) a := by
  induction L generalizing a with
  | nil => rfl
  | cons x t ih => exact ih _

theorem SettingItem.clamp_toInt {x : Int} (range : item.inRange x = true) :
    item.clamp (BitVec.ofInt 16 x).toInt = x := by
  obtain ⟨low, high⟩ := (item.inRange_iff x).mp range
  have wide : -32768 ≤ item.range.1 ∧ item.range.2 ≤ 32767 := by cases item <;> decide
  have back : (BitVec.ofInt 16 x).toInt = x := by
    rw [BitVec.toInt_ofInt]
    exact Int.bmod_eq_of_le (by omega) (by omega)
  rw [back, SettingItem.clamp, clampInt, if_neg (by omega), if_neg (by omega)]

/-- Each setting of `w` written to its place: what has been written, or read so already, reads as `w` does. -/
theorem Settings.read_foldl_write (range : w.inRange = true) (L : List (SettingItem × Nat))
    (places : ∀ p ∈ L, p.2 ∈ p.1.numbers) (a : Settings) (number : n ∈ item.numbers)
    (done : (item, n) ∈ L ∨ a.read item n = w.read item n) :
    (L.foldl (fun a p => a.write p.1 p.2 (w.read p.1 p.2)) a).read item n = w.read item n := by
  induction L generalizing a with
  | nil => exact done.resolve_left List.not_mem_nil
  | cons p t ih =>
    refine ih (fun q among => places q (List.mem_cons_of_mem _ among)) _ ?_
    by_cases here : (item, n) = p
    · subst here
      exact .inr (a.read_write_self item n ((item.inRange_iff _).mpr (w.inRange_iff.mp range item n number)))
    · refine done.imp (fun among => (List.mem_cons.mp among).resolve_left here) fun read => ?_
      rw [a.read_write_ne _ (places p List.mem_cons_self) number here, read]

theorem Settings.ofImage_image (range : w.inRange = true) : Settings.ofImage w.image = w := by
  have writes : Settings.ofImage w.image =
      settingPlaces.foldl (fun a p => a.write p.1 p.2 (w.read p.1 p.2)) Settings.default := by
    rw [Settings.ofImage, Settings.image, foldl_zip_map]
    refine List.foldl_ext _ _ _ fun a p among => ?_
    have inside := w.inRange_iff.mp range p.1 p.2 (mem_settingPlaces.mp among)
    rw [SettingItem.clamp_toInt ((p.1.inRange_iff _).mpr inside)]
  rw [writes]
  exact Settings.ext_read fun item n number => Settings.read_foldl_write range settingPlaces
    (fun p among => mem_settingPlaces.mp among) _ number (.inl (mem_settingPlaces.mpr number))

end Load

/-- Settles O58: the save and its end on the slot and the stored copy; an image in range goes through its clamps
unchanged. -/
theorem savedSettingsLoadBack : Obligations.SavedSettingsLoadBack := by
  unfold Obligations.SavedSettingsLoadBack
  refine ⟨fun f s admits => ?_, fun s snap kind tag accepted held saving slot => ?_, fun w check range => ?_, rfl, rfl⟩
  · refine State.exec_served admits rfl ?_
    rw [serveSaveSettings, Slot.displaced_eq] <;> rfl
  · have runs : ∀ agrees, exec (.saveWriteComplete agrees) s = .next (s.saveEnds agrees).settle := fun agrees => by
      show (s.whenRunning fun s => s.saveEnds agrees).answer = _
      rw [State.whenRunning_of _ held]
      rfl
    intro done
    refine ⟨?_, ?_⟩
    · rw [runs, State.saveEnds, saving]
      simp only [State.slotCompletes, slot, if_true]
      rfl
    · rw [runs, State.saveEnds, saving]
      simp only [State.slotCompletes, slot]
      rfl
  · rw [StoredCopy.load, Settings.ofImage_image range]

end Sys2Proof.Machine
end

section
/-! PROOFS. Power-on and the taking of RESTART_N: what each clears, what it keeps, and the lines (R23, R24, R42, R60,
R109, R151, R152, R166, R180): O59. -/

namespace Sys2Proof.Machine

section Resets

variable {s : State} {i : Fin 4}

/-! ### Power-on (R151) -/

/-- A line as its power-on leaves it, by the loaded settings. -/
def State.poweredLine (s : State) (i : Fin 4) : Line :=
  let kind := s.settings.dialKind.get i
  if s.settings.lineEnable.get i = true then
    { s.line i with
      enabled := true, kind := kind, state := .unset
      conds := s.withCause (s.line i).conds .dialUnset (.dialUnset kind .powerOn) }
  else { s.line i with kind := kind }

theorem State.powerOnLine_eq (s : State) (i : Fin 4) : s.powerOnLine i = s.setLine i (s.poweredLine i) := by
  by_cases enabled : s.settings.lineEnable.get i = true
  · simp only [State.powerOnLine, State.poweredLine, enabled, if_true, State.onLine, State.beginDialUnset,
      State.line_setLine_self, State.beginCause_line]
    rfl
  · simp only [State.powerOnLine, State.poweredLine, enabled, Bool.false_eq_true, if_false, State.onLine]

theorem State.poweredLine_setLine_ne (s : State) (i : Fin 4) {j : Fin 4} (l : Line) (other : j ≠ i) :
    (s.setLine j l).poweredLine i = s.poweredLine i := by
  simp only [State.poweredLine, State.line_setLine_ne _ l other]
  rfl

theorem State.powerOn_eq (s : State) : s.powerOn =
    (s.fresh.loadSettings.setLines s.fresh.loadSettings.poweredLine).beginService := by
  rw [← State.foldl_setLine State.powerOnLine_eq State.poweredLine_setLine_ne]
  rfl

theorem State.fresh_line (s : State) (i : Fin 4) : s.fresh.loadSettings.line i = Line.initial := Vec.get_fill _ i

theorem State.line_powerOn (s : State) (i : Fin 4) : s.powerOn.line i = s.fresh.loadSettings.poweredLine i := by
  rw [State.powerOn_eq]
  exact State.line_setLines _ i

/-- All but the lines after a power-on. -/
theorem State.powerOn_frame (s : State) : s.powerOn = { State.reset with
    copy := s.copy, settings := s.copy.load.1, source := s.copy.load.2, sc := ⟨s.powerOn.sc.lines, []⟩
    freeCount := s.freeCount, pending := s.pending } := by
  rw [State.powerOn_eq]
  rfl

theorem State.withCause_nil (s : State) (c : Class) (d : Detail) :
    s.withCause [] c d = [⟨c, .activeUnack, s.now, s.elapsed, d, 1⟩] := rfl

theorem State.fresh_now (s : State) : s.fresh.loadSettings.now = ⟨0, .unsync, .observed⟩ := by
  have station : s.fresh.loadSettings.stationMs = 0 := Nat.zero_div 1000
  rw [State.now, station]
  rfl

/-- An enabled line presents DIAL_UNSET at power-on; a disabled one is OFF with no condition (R151). -/
theorem State.poweredLine_fresh (s : State) (i : Fin 4) :
    let enabled := s.copy.load.1.lineEnable.get i
    ∃ conds, s.fresh.loadSettings.poweredLine i = ⟨enabled, s.copy.load.1.dialKind.get i, .unknown, false,
      if enabled = true then .unset else .off, none, conds⟩ ∧
      (enabled = false → conds = []) ∧
      (enabled = true → conds = [⟨.dialUnset, .activeUnack, ⟨0, .unsync, .observed⟩, 0,
        .dialUnset (s.copy.load.1.dialKind.get i) .powerOn, 1⟩]) := by
  intro enabled
  have settings : s.fresh.loadSettings.settings = s.copy.load.1 := rfl
  refine ⟨(s.fresh.loadSettings.poweredLine i).conds, ?_, fun off => ?_, fun on => ?_⟩ <;>
    rw [State.poweredLine, State.fresh_line, settings]
  · cases h : s.copy.load.1.lineEnable.get i <;> simp only [enabled, h] <;> rfl
  · rw [if_neg (Bool.eq_false_iff.mp off)]
    rfl
  · rw [if_pos on]
    exact (State.withCause_nil ..).trans (by rw [State.fresh_now]; rfl)

/-! ### The taking of RESTART_N (R24, R42, R152) -/

theorem TimeBase.restarted_eq (t : TimeBase) : t.restarted = { t with
    good := 0, outliers := 0, gapStart := none, heldMsg := none, precedingEdge := none, refRx := none
    discipline := if t.discipline = .locked ∨ t.discipline = .acquire then .holdover else t.discipline
    holdoverStart := if t.discipline = .locked ∨ t.discipline = .acquire then some t.elapsed else t.holdoverStart } := by
  rw [TimeBase.restarted]
  cases t.discipline <;> rfl

theorem State.line_restart (s : State) (i : Fin 4) : s.restart.line i = (s.line i).restarted :=
  Vec.get_map Line.restarted s.sc.lines i

theorem State.link_restart (s : State) (i : Fin 4) : s.restart.link i = (s.link i).restarted :=
  Vec.get_map Link.restarted s.links i

variable {l : Line} {c : Impulse}

theorem Line.restarted_counted {position : Nat} {last : Polarity} (caught : l.state = .impulse c)
    (form : c.form = .counted) (dial : l.dial = .at position last) : l.restarted = { l with
      dial := .at ((position + 1) % l.kind.positions) c.polarity, resolving := true, state := .idle } := by
  simp only [Line.restarted, caught, form, dial]
  rfl

theorem Line.restarted_resolving (caught : l.state = .impulse c) (form : c.form = .resolving) :
    l.restarted = { l with state := .idle } := by
  simp only [Line.restarted, caught, form]

theorem Line.restarted_timed {m : Nat} (timed : l.state = .gap m ∨ l.state = .fault m) :
    l.restarted = { l with state := .idle } := by
  rcases timed with gap | fault
  · simp only [Line.restarted, gap]
  · simp only [Line.restarted, fault]

theorem Line.restarted_stands (stands : l.state = .off ∨ l.state = .unset ∨ l.state = .idle ∨
    ∃ why, l.state = .wait why) : l.restarted = l := by
  unfold Line.restarted
  rcases stands with off | unset | idle | ⟨why, wait⟩
  · rw [off]
  · rw [unset]
  · rw [idle]
  · rw [wait]

end Resets

/-- Settles O59: power-on leaves the power-on state but for the stored copy and the loaded settings; a restart keeps the
clock and the lines, one caught in an impulse resuming as R152 says. -/
theorem resetsClearAndKeep : Obligations.ResetsClearAndKeep := by
  unfold Obligations.ResetsClearAndKeep
  refine fun s => ⟨?_, fun held => ?_, fun running => ?_⟩
  · have powers : exec .powerOn s = .next s.powerOn.settle := rfl
    have frame := s.powerOn_frame
    have settings : s.powerOn.settings = s.copy.load.1 := by rw [State.powerOn_frame]
    have lines := s.line_powerOn
    generalize s.powerOn = p at powers frame settings lines
    refine ⟨p.settle, powers,
      congrArg (fun t => { t with attnU := p.settle.attnU, attnR := p.settle.attnR }) frame, fun i => ?_⟩
    obtain ⟨conds, line, off, on⟩ := s.poweredLine_fresh i
    rw [show p.settle.settings = s.copy.load.1 from settings]
    exact ⟨conds, (lines i).trans line, off, on⟩
  · show (if s.held then s else s.restart).answer = _
    rw [if_pos held]
    rfl
  · have taken : exec .restartTaken s = .next s.restart.settle := by
      show (if s.held then s else s.restart).answer = _
      rw [if_neg (Bool.eq_false_iff.mp running)]
      rfl
    refine ⟨_, taken, ?_, fun i => ⟨s.link_restart i, fun c position last caught form dial => ?_,
      fun c caught form => ?_, fun m timed => ?_, fun stands => ?_⟩⟩
    · rw [State.restart, TimeBase.restarted_eq]
      rfl
    · exact (s.line_restart i).trans (Line.restarted_counted caught form dial)
    · exact (s.line_restart i).trans (Line.restarted_resolving caught form)
    · exact (s.line_restart i).trans (Line.restarted_timed timed)
    · exact (s.line_restart i).trans (Line.restarted_stands stands)

end Sys2Proof.Machine
end

section
/-! PROOFS. What each block presents at the release of RESTART_N: the Time Base, the links, and the lines with the loaded
settings (R24, R152, R166). -/

namespace Sys2Proof.Machine

/-! ### A cause presented afresh, or ended (R166) -/

/-- A condition set after its block has presented a class, or has not. -/
def CondSet.presented (cs : CondSet) (c : Class) (on : Bool) (date : Date) (mark : Nat) (detail : Detail) : CondSet :=
  if on then cs.begun c date mark detail else cs.without c

section Presented

variable {cs : CondSet} {c : Class} {on : Bool} {date : Date} {mark : Nat} {detail : Detail}

theorem CondSet.find_presented_ne {d : Class} (other : c ≠ d) :
    (cs.presented c on date mark detail).find d = cs.find d := by
  cases on with
  | false => exact cs.find_without_ne other
  | true => exact cs.find_begun_ne date mark detail other

theorem CondSet.find_presented (shown : on = true) :
    ∃ count, (cs.presented c on date mark detail).find c = some ⟨c, .activeUnack, date, mark, detail, count⟩ := by
  subst shown
  exact cs.find_begun c date mark detail

theorem CondSet.active_presented : (cs.presented c on date mark detail).active c = on := by
  cases on with
  | false => exact cs.active_without c
  | true => exact cs.active_begun c date mark detail

variable {s : State} {i : Fin 4}

theorem State.present_timeBase (s : State) (on : Bool) (c : Class) (d : Detail) : s.present on .timeBase c d =
    { s with tb := { s.tb with conds := s.tb.conds.presented c on s.now s.elapsed d } } := by
  cases on with
  | false => exact s.endCause_timeBase c
  | true => rfl

theorem State.present_setLine (l : Line) (on : Bool) (c : Class) (d : Detail) :
    (s.setLine i l).present on (.line i) c d =
      s.setLine i { l with conds := l.conds.presented c on s.now s.elapsed d } := by
  cases on with
  | false => exact State.endCause_line ..
  | true =>
    simp only [State.present, if_true, State.causeBegins, State.condsOf_line, State.line_setLine_self,
      State.setLine_setConds, State.setLine_now, State.setLine_elapsed]
    rfl

theorem State.presentLink_eq (s : State) (i : Fin 4) :
    s.presentLink i = s.setLink i { s.link i with conds := (s.link i).conds.without .linkGap } := by
  have ends := s.endCause_link i (s.link i) .linkGap
  rw [State.setLink_link] at ends
  exact ends

end Presented

/-! ### A line with the loaded settings (R152, R166) -/

/-- A line that takes a dial kind: a new one leaves its position UNSET (R148). -/
def Line.taking (l : Line) (kind : DialKind) : Line :=
  if kind = l.kind then l else { l with kind := kind, dial := l.dial.forget, resolving := false }

/-- Where an enabled line rests after the release, by its dial (R152). -/
def State.resumedState (s : State) (i : Fin 4) (d : Dial) : LineState :=
  match d with
  | .at position last => s.evaluatedLine i position last
  | .unset _ => .unset
  | .unknown => .unset

/-- A line after the release (R152, R166). -/
def State.resumedLine (s : State) (i : Fin 4) : Line :=
  let l := s.line i
  let enabled := s.settings.lineEnable.get i
  let kind := s.settings.dialKind.get i
  let taking := l.taking kind
  { taking with
    enabled := enabled
    state := if enabled = true then s.resumedState i taking.dial else .off
    conds := (l.conds.without .lineFault).presented .dialUnset (enabled && !taking.dial.isSet) s.now s.elapsed
      (.dialUnset kind (if kind = l.kind then .restart else .kindChange)) }

section Resume

variable {s : State} {i : Fin 4} {l : Line} {kind : DialKind} {position : Nat} {last : Polarity}

theorem Dial.isSet_forget (d : Dial) : d.forget.isSet = false := by cases d <;> rfl

theorem State.resumedState_at {d : Dial} (dial : d = .at position last) :
    s.resumedState i d = s.evaluatedLine i position last := by
  rw [dial, State.resumedState]

theorem State.resumedState_unset {d : Dial} (unset : d.isSet = false) : s.resumedState i d = .unset := by
  match d, unset with
  | .unset _, _ => rfl
  | .unknown, _ => rfl

theorem Line.taking_conds (l : Line) (kind : DialKind) : (l.taking kind).conds = l.conds := by
  unfold Line.taking
  split <;> rfl

/-- A set position stands only under an unchanged dial kind, and the resolving flag with it. -/
theorem Line.taking_at (dial : (l.taking kind).dial = .at position last) :
    kind = l.kind ∧ (l.taking kind).resolving = l.resolving ∧ (l.taking kind).kind = l.kind := by
  by_cases same : kind = l.kind
  · rw [Line.taking, if_pos same]
    exact ⟨same, rfl, rfl⟩
  · have forgot := l.dial.isSet_forget
    rw [Line.taking, if_neg same] at dial
    rw [show l.dial.forget = .at position last from dial] at forgot
    cases forgot

/-- A line as its resumption takes the settings, its state apart. -/
theorem Line.taking_resumed (l : Line) (enabled : Bool) (kind : DialKind) : ∃ x,
    (if decide (kind ≠ l.kind) = true then
      ({ l with enabled := enabled, state := if enabled = true then LineState.idle else .off } : Line).rekinded kind
    else { l with enabled := enabled, state := if enabled = true then LineState.idle else .off }) =
      { l.taking kind with enabled := enabled, state := x } ∧ (enabled = false → x = .off) := by
  by_cases same : kind = l.kind
  · refine ⟨if enabled = true then .idle else .off, ?_, fun off => if_neg (Bool.eq_false_iff.mp off)⟩
    rw [if_neg (by simpa using same), Line.taking, if_pos same]
  · refine ⟨if enabled = true then .unset else .off, ?_, fun off => if_neg (Bool.eq_false_iff.mp off)⟩
    rw [if_pos (by simpa using same), Line.taking, if_neg same]
    rfl

/-- A line as it takes the loaded settings, before DIAL_UNSET is presented and it rests or evaluates. -/
def Line.restored (l : Line) (enabled : Bool) (kind : DialKind) (x : LineState) : Line :=
  { l.taking kind with enabled := enabled, state := x, conds := l.conds.without .lineFault }

/-- The resumption of a line: it takes the settings, and then is OFF, evaluates, or is UNSET (R152). -/
theorem State.resumeLine_restored (s : State) (i : Fin 4) : ∃ x,
    (s.settings.lineEnable.get i = false → x = .off) ∧
    let kind := s.settings.dialKind.get i
    let m := (s.line i).restored (s.settings.lineEnable.get i) kind x
    s.resumeLine i =
      if (!s.settings.lineEnable.get i) = true then (s.setLine i m).endCause (.line i) .dialUnset
      else if m.dial.isSet = true then ((s.setLine i m).endCause (.line i) .dialUnset).evaluate i
      else (s.setLine i { m with state := .unset }).present true (.line i) .dialUnset
        (.dialUnset kind (if kind = (s.line i).kind then .restart else .kindChange)) := by
  obtain ⟨x, takes, off⟩ := (s.line i).taking_resumed (s.settings.lineEnable.get i) (s.settings.dialKind.get i)
  have conds := (s.line i).taking_conds (s.settings.dialKind.get i)
  refine ⟨x, off, ?_⟩
  intro kind m
  have restores : (s.setLine i { (s.line i).taking kind with
      enabled := s.settings.lineEnable.get i, state := x }).endCause (.line i) .lineFault = s.setLine i m := by
    rw [State.endCause_line, conds]
    rfl
  have reason : (if decide (kind ≠ (s.line i).kind) = true then UnsetReason.kindChange else .restart) =
      if kind = (s.line i).kind then .restart else .kindChange := by
    simp only [decide_eq_true_eq, ne_eq, ite_not]
  unfold State.resumeLine
  dsimp only
  rw [State.onLine, takes, restores, State.line_setLine_self, State.onLine, State.line_setLine_self,
    State.setLine_setLine, reason]
  rfl

/-- The resumption of a line is that of its record alone. -/
theorem State.resumeLine_eq (s : State) (i : Fin 4) : s.resumeLine i = s.setLine i (s.resumedLine i) := by
  obtain ⟨x, off, resumes⟩ := s.resumeLine_restored i
  dsimp only at resumes
  rw [resumes]
  cases enabled : s.settings.lineEnable.get i with
  | false =>
    have ends : (s.setLine i ((s.line i).restored false (s.settings.dialKind.get i) x)).endCause (.line i) .dialUnset =
        _ := State.present_setLine _ false (.dialUnset) (.dialUnset (s.settings.dialKind.get i) .restart)
    refine (if_pos (show (!false) = true from rfl)).trans (ends.trans ?_)
    rw [State.resumedLine, enabled, off enabled]
    rfl
  | true =>
    refine (if_neg (show ¬ (!true) = true from Bool.false_ne_true)).trans ?_
    cases isSet : ((s.line i).taking (s.settings.dialKind.get i)).dial.isSet with
    | false =>
      refine (if_neg (Bool.eq_false_iff.mp isSet)).trans ((State.present_setLine ..).trans ?_)
      rw [State.resumedLine, enabled, State.resumedState_unset isSet, isSet]
      rfl
    | true =>
      obtain ⟨position, last, dial⟩ := Dial.isSet_iff.mp isSet
      obtain ⟨-, resolving, kind⟩ := Line.taking_at dial
      have ends : (s.setLine i ((s.line i).restored true (s.settings.dialKind.get i) x)).endCause (.line i) .dialUnset =
          _ := State.present_setLine _ false (.dialUnset) (.dialUnset (s.settings.dialKind.get i) .restart)
      have evaluates := State.evaluatedLine_setLine ((s.line i).restored true (s.settings.dialKind.get i) x) position last
        kind resolving
      refine (if_pos isSet).trans ((State.endCause_evaluate (l := (s.line i).restored true _ x) dial _).trans ?_)
      rw [evaluates, ends, State.line_setLine_self, State.setLine_setLine,
        State.resumedLine, enabled, State.resumedState_at dial, isSet]
      rfl

theorem State.evaluatedLine_congr {t : State} (base : t.tb = s.tb) (settings : t.settings = s.settings)
    (kind : (t.line i).kind = (s.line i).kind) (resolving : (t.line i).resolving = (s.line i).resolving)
    (position : Nat) (last : Polarity) : t.evaluatedLine i position last = s.evaluatedLine i position last := by
  have civil : t.civilMs = s.civilMs := by rw [State.civilMs, State.civilMs, State.stationMs, State.stationMs, base, settings]
  simp only [State.evaluatedLine, base, settings, kind, resolving, civil]

theorem State.resumedLine_congr {t : State} (base : t.tb = s.tb) (settings : t.settings = s.settings)
    (same : t.line i = s.line i) : t.resumedLine i = s.resumedLine i := by
  have states : ∀ d, t.resumedState i d = s.resumedState i d := fun d => by
    match d with
    | .at position last => exact State.evaluatedLine_congr base settings (by rw [same]) (by rw [same]) position last
    | .unset _ => rfl
    | .unknown => rfl
  have now : t.now = s.now := by simp only [State.now, State.stationMs, State.quality, base]
  have elapsed : t.elapsed = s.elapsed := congrArg TimeBase.elapsed base
  simp only [State.resumedLine, same, settings, states, now, elapsed]

/-- The lines do not see each other. -/
theorem State.resumedLine_setLine_ne (s : State) (i : Fin 4) {j : Fin 4} (l : Line) (other : j ≠ i) :
    (s.setLine j l).resumedLine i = s.resumedLine i :=
  State.resumedLine_congr rfl rfl (State.line_setLine_ne s l other)

/-! ### The blocks as they begin work again -/

/-- The lines and the links after the release, and the service state; the rest stands (R42, R112, R152, R166). -/
structure State.Resumes (s t : State) : Prop where
  frame : t = { s with
    links := t.links, sc := ⟨t.sc.lines, s.sc.announcements⟩, tc := { s.tc with service := s.quality.service } }
  links : ∀ i, t.link i = { s.link i with conds := (s.link i).conds.without .linkGap }
  lines : ∀ i, t.line i = s.resumedLine i

theorem State.resumes (s : State) :
    s.Resumes (four.foldl State.resumeLine (four.foldl State.presentLink s)).beginService := by
  have links := State.foldl_setLink (g := fun s i => { s.link i with conds := (s.link i).conds.without .linkGap })
    State.presentLink_eq (fun s i _ l other => by rw [State.link_setLink_ne _ l other]) s
  rw [links, State.foldl_setLine State.resumeLine_eq State.resumedLine_setLine_ne]
  have link : ∀ (u : State) h i, (u.setLines h).beginService.link i = u.link i := fun _ _ _ => rfl
  have line : ∀ (u : State) h i, (u.setLines h).beginService.line i = h i := fun _ => State.line_setLines
  refine ⟨rfl, fun i => (link ..).trans (State.link_setLinks ..), fun i => (line ..).trans ?_⟩
  exact State.resumedLine_congr rfl rfl rfl

end Resume

end Sys2Proof.Machine
end

section
/-! PROOFS. The release of RESTART_N: the holdover timer against the loaded limit, the announcements, and what stands
afterwards (R12, R13, R18, R24, R112, R152, R166, R185): O60. -/

namespace Sys2Proof.Machine

section TimeBase

variable {s : State}

/-! ### The Time Base as it begins work (R12, R24) -/

/-- The discipline after the holdover timer is compared with the loaded limit (R12). -/
def State.compared (s : State) : Discipline := if s.holdoverReached then .drift else s.tb.discipline

theorem State.compared_reached (reached : s.holdoverReached = true) : s.compared = .drift := if_pos reached

theorem State.compared_stands (early : ¬ s.holdoverReached = true) : s.compared = s.tb.discipline := if_neg early

/-- What the comparison sends to both receivers (R13). -/
def State.comparisonSent (s : State) : List Announcement :=
  if s.compared = s.tb.discipline then [] else [⟨.unsync, s.tb.stationUs, none⟩]

theorem State.compareHoldover_eq (s : State) :
    s.compareHoldover = s.withTimeBase { s.tb with discipline := s.compared } s.comparisonSent := by
  unfold State.compareHoldover State.comparisonSent
  by_cases reached : s.holdoverReached = true
  · obtain ⟨start, holdover, -⟩ := State.holdoverReached_iff.mp reached
    rw [if_pos reached, State.announceFrom_tb, State.compared_reached reached, holdover]
    rfl
  · rw [if_neg reached, State.compared_stands reached, if_pos rfl]
    simp only [State.withTimeBase, List.append_nil, List.map_nil]

/-- What the loaded settings send to the Slave Clock Driver (R18). -/
def State.civilSent (s : State) (old : Settings) : List ScAnnouncement :=
  if s.settings.boundaryHour = old.boundaryHour ∧ s.settings.civilOffset = old.civilOffset then [] else [.civil s.civilMs]

theorem State.announceLoadedCivil_eq (s : State) (old : Settings) : s.announceLoadedCivil old =
    { s with sc := { s.sc with announcements := s.sc.announcements ++ s.civilSent old } } := by
  unfold State.announceLoadedCivil State.civilSent
  by_cases same : s.settings.boundaryHour = old.boundaryHour ∧ s.settings.civilOffset = old.civilOffset
  · rw [if_pos same, if_pos same, List.append_nil]
  · rw [if_neg same, if_neg same]
    rfl

/-- The condition set of the Time Base after it presents its causes (R22, R166). -/
def State.timeBaseConds (s : State) : CondSet :=
  (s.tb.conds.presented .referenceLost (decide (s.tb.discipline = .holdover ∨ s.tb.discipline = .drift)) s.now s.elapsed
    (.referenceLost (s.tb.lastPulse.map (· / 1000)))).presented .holdoverExpired (decide (s.tb.discipline = .drift)) s.now
    s.elapsed (.holdoverExpired s.settings.holdoverLimit.toNat)

theorem State.presentTimeBase_eq (s : State) :
    s.presentTimeBase = { s with tb := { s.tb with conds := s.timeBaseConds } } := by
  have lost : (decide (s.tb.discipline = .drift) || decide (s.tb.discipline = .holdover)) =
      decide (s.tb.discipline = .holdover ∨ s.tb.discipline = .drift) := by
    cases s.tb.discipline <;> rfl
  rw [State.presentTimeBase]
  dsimp only
  rw [lost, State.present_timeBase, State.present_timeBase]
  rfl

/-! ### The release -/

/-- The part at a release once the settings are loaded. -/
def State.loaded (s : State) : State := ({ s with held := false } : State).loadSettings

/-- The Time Base at a release, its conditions as they stood. -/
def State.comparedBase (s : State) : State :=
  { s.loaded with tb := { s.tb with discipline := s.loaded.compared } }

/-- The part at a release when the links and the lines resume. -/
def State.timed (s : State) : State :=
  { s.loaded with
    tb := { s.tb with discipline := s.loaded.compared, conds := s.comparedBase.timeBaseConds }
    tc := { s.tc with announcements := s.tc.announcements ++ s.loaded.comparisonSent }
    sc := { s.sc with announcements := s.sc.announcements ++ s.loaded.comparisonSent.map ScAnnouncement.time ++
      s.comparedBase.civilSent s.settings } }

theorem State.release_resumes (s : State) : s.timed.Resumes s.release := by
  have timed : (s.loaded.compareHoldover.announceLoadedCivil s.settings).presentTimeBase = s.timed := by
    rw [State.compareHoldover_eq, State.announceLoadedCivil_eq, State.presentTimeBase_eq]
    rfl
  have resumes := s.timed.resumes
  rw [← timed] at resumes ⊢
  exact resumes

end TimeBase

section Lines

variable {s : State} {i : Fin 4} {l : Line} {kind : DialKind} {position : Nat} {last : Polarity}

/-! ### The lines after the release (R152) -/

theorem Line.taking_isSet (l : Line) (kind : DialKind) :
    (l.taking kind).dial.isSet = (decide (kind = l.kind) && l.dial.isSet) := by
  by_cases same : kind = l.kind
  · simp [Line.taking, same]
  · simp [Line.taking, same, Dial.isSet_forget]

theorem State.resumedLine_set (same : s.settings.dialKind.get i = (s.line i).kind)
    (enabled : s.settings.lineEnable.get i = true) (dial : (s.line i).dial = .at position last) :
    s.resumedLine i = { s.line i with
      enabled := true, state := s.evaluatedLine i position last, conds := (s.resumedLine i).conds } := by
  simp only [State.resumedLine, Line.taking, same, enabled, if_true, State.resumedState_at dial]

theorem State.resumedLine_unset (same : s.settings.dialKind.get i = (s.line i).kind)
    (enabled : s.settings.lineEnable.get i = true) (unset : (s.line i).dial.isSet = false) :
    s.resumedLine i = { s.line i with enabled := true, state := .unset, conds := (s.resumedLine i).conds } := by
  simp only [State.resumedLine, Line.taking, same, enabled, if_true, State.resumedState_unset unset]

theorem State.resumedLine_rekinded (other : s.settings.dialKind.get i ≠ (s.line i).kind)
    (enabled : s.settings.lineEnable.get i = true) : s.resumedLine i = { s.line i with
      enabled := true, kind := s.settings.dialKind.get i, dial := (s.line i).dial.forget, resolving := false
      state := .unset, conds := (s.resumedLine i).conds } := by
  simp only [State.resumedLine, Line.taking, other, enabled, if_true, if_false,
    State.resumedState_unset (Dial.isSet_forget _)]

theorem State.resumedLine_off (disabled : s.settings.lineEnable.get i = false) : s.resumedLine i = { s.line i with
    enabled := false, kind := s.settings.dialKind.get i, state := .off, conds := (s.resumedLine i).conds
    dial := if s.settings.dialKind.get i = (s.line i).kind then (s.line i).dial else (s.line i).dial.forget
    resolving := if s.settings.dialKind.get i = (s.line i).kind then (s.line i).resolving else false } := by
  by_cases same : s.settings.dialKind.get i = (s.line i).kind
  · simp [State.resumedLine, Line.taking, same, disabled]
  · simp [State.resumedLine, Line.taking, same, disabled]

/-- LINE_FAULT has ended at every line, and DIAL_UNSET is presented at an enabled one whose position is not set (R166). -/
theorem State.resumedLine_conds : (s.resumedLine i).conds = ((s.line i).conds.without .lineFault).presented .dialUnset
    (s.settings.lineEnable.get i && !(decide (s.settings.dialKind.get i = (s.line i).kind) && (s.line i).dial.isSet))
    s.now s.elapsed (.dialUnset (s.settings.dialKind.get i)
      (if s.settings.dialKind.get i = (s.line i).kind then .restart else .kindChange)) := by
  rw [← Line.taking_isSet]
  rfl

theorem State.resumedLine_lineFault : (s.resumedLine i).conds.active .lineFault = false := by
  rw [State.resumedLine_conds, CondSet.active_of_find (CondSet.find_presented_ne (by decide)), CondSet.active_without]

theorem State.resumedLine_dialUnset : (s.resumedLine i).conds.active .dialUnset = (s.settings.lineEnable.get i &&
    !(decide (s.settings.dialKind.get i = (s.line i).kind) && (s.line i).dial.isSet)) := by
  rw [State.resumedLine_conds, CondSet.active_presented]

end Lines

end Sys2Proof.Machine
end

section
/-! PROOFS. The release of RESTART_N, assembled from what the Time Base, the links and the lines present: O60. -/

namespace Sys2Proof.Machine

section Assembly

variable {s : State}

theorem State.exec_restartRelease (held : s.held = true) : exec .restartRelease s = .next s.release.settle := by
  show (if s.held then s.release else s).answer = _
  rw [if_pos held]
  rfl

/-- The service state is SUSPENDED exactly in FREE and DRIFT (R112). -/
theorem Discipline.service_suspended_iff (d : Discipline) : d.quality.service = .suspended ↔ d = .free ∨ d = .drift := by
  cases d <;> decide

theorem State.loaded_reached_iff : s.loaded.holdoverReached = true ↔ s.tb.discipline = .holdover ∧
    ∃ start, s.tb.holdoverStart = some start ∧
      s.copy.load.1.holdoverLimit * 60000 ≤ ((s.tb.elapsed - start : Nat) : Int) := by
  rw [State.holdoverReached_iff]
  exact ⟨fun ⟨start, holdover, running, reached⟩ => ⟨holdover, start, running, reached⟩,
    fun ⟨holdover, start, running, reached⟩ => ⟨start, holdover, running, reached⟩⟩

end Assembly

/-- Settles O60: the comparison with the loaded limit and what it announces, and the causes each block presents. -/
theorem releaseLoadsAndPresents : Obligations.ReleaseLoadsAndPresents := by
  unfold Obligations.ReleaseLoadsAndPresents
  refine fun s => ⟨fun running => ?_, fun held => ⟨s.release.settle, State.exec_restartRelease held, ?_⟩⟩
  · show (if s.held then s.release else s).answer = _
    rw [if_neg (Bool.eq_false_iff.mp running)]
    rfl
  obtain ⟨frame, links, lines⟩ := s.release_resumes
  generalize s.release = t at frame links lines
  have base : t.settle.tb = s.timed.tb := (congrArg State.tb frame).trans rfl
  have discipline : t.settle.tb.discipline = s.loaded.compared := congrArg TimeBase.discipline base
  have conds : t.settle.tb.conds = s.comparedBase.timeBaseConds := congrArg TimeBase.conds base
  have service : t.settle.tc.service = s.loaded.compared.quality.service :=
    (congrArg (fun t => t.tc.service) frame).trans rfl
  have settings : t.settle.settings = s.copy.load.1 := (congrArg State.settings frame).trans rfl
  have civilMs : t.settle.civilMs = s.comparedBase.civilMs := by
    rw [State.civilMs, State.stationMs, settings, base]
    rfl
  have line : ∀ i, t.settle.line i = s.timed.resumedLine i := lines
  intro loaded date presented drift lost reached sent civil
  have sends : sent = s.loaded.comparisonSent := by
    simp only [sent, discipline]
    rfl
  have announces : civil = s.comparedBase.civilSent s.settings := by
    simp only [civil, civilMs]
    rfl
  have isDate : date = s.timed.now := by
    simp only [date, discipline]
    rfl
  have isLost : lost = decide (s.loaded.compared = .holdover ∨ s.loaded.compared = .drift) := by
    simp only [lost, discipline]
  have isDrift : drift = decide (s.loaded.compared = .drift) := by
    simp only [drift, discipline]
  have presents : t.settle.tb.conds = presented .holdoverExpired drift (.holdoverExpired loaded.holdoverLimit.toNat)
      (presented .referenceLost lost (.referenceLost (s.tb.lastPulse.map (· / 1000))) s.tb.conds) := by
    rw [conds, isDrift, isLost]
    simp only [presented, isDate]
    rfl
  refine ⟨?_, fun isReached => ?_, fun early => ?_, presents, fun c notLost notExpired => ?_, fun isOn => ?_,
    fun isOn => ?_, ?_, ?_, ?_, fun i => ⟨links i, ?_, fun c other => ?_, ?_⟩⟩
  · rw [discipline, conds, service, sends, announces]
    exact congrArg (fun u => { u with attnU := t.settle.attnU, attnR := t.settle.attnR }) frame
  · exact discipline.trans (State.compared_reached (State.loaded_reached_iff.mpr isReached))
  · exact discipline.trans (State.compared_stands (mt State.loaded_reached_iff.mp early))
  · rw [conds]
    exact (CondSet.find_presented_ne notExpired.symm).trans (CondSet.find_presented_ne notLost.symm)
  · rw [conds, isDate, State.timeBaseConds, CondSet.find_presented_ne (by decide)]
    exact CondSet.find_presented (isLost.symm.trans isOn)
  · rw [conds, isDate]
    exact CondSet.find_presented (isDrift.symm.trans isOn)
  · rw [conds, discipline, State.timeBaseConds, CondSet.active_of_find (CondSet.find_presented_ne (by decide)),
      CondSet.active_presented]
    exact decide_eq_true_iff
  · rw [conds, discipline, State.timeBaseConds, CondSet.active_presented]
    exact decide_eq_true_iff
  · rw [service, discipline]
    exact Discipline.service_suspended_iff _
  · rw [show t.settle.link i = _ from links i]
    exact CondSet.active_without _ _
  · rw [show t.settle.link i = _ from links i]
    exact CondSet.find_without_ne _ other.symm
  intro l enabled kind unset
  have lineConds : (t.settle.line i).conds = (s.timed.resumedLine i).conds := congrArg Line.conds (line i)
  refine ⟨?_, ?_⟩
  · rw [line]
    exact State.resumedLine_lineFault
  intro placed
  have isPlaced : placed = (decide (kind = l.kind) && l.dial.isSet) := by
    simp only [placed]
    cases l.dial <;> simp [Dial.isSet]
  have presentsUnset : (t.settle.line i).conds.active .dialUnset = (enabled && !placed) := by
    rw [isPlaced, line, State.resumedLine_dialUnset]
    rfl
  have reasons : ∀ reason, (enabled && !placed) = true →
      (if kind = l.kind then UnsetReason.restart else .kindChange) = reason → unset reason := by
    rintro _ shown rfl
    rw [isPlaced] at shown
    simp only [unset]
    rw [isDate, line, State.resumedLine_conds]
    exact CondSet.find_presented shown
  refine ⟨?_, fun position last same on dial => ?_, fun same on notAt => ?_, fun changed on => ?_, fun off => ?_⟩
  · rw [isPlaced, line, State.resumedLine_conds]
    simp only [presented, isDate]
    rfl
  · have set := State.resumedLine_set (s := s.timed) (i := i) same on dial
    have evaluated := State.evaluatedLine_congr (s := s.timed) (i := i) base (settings.trans rfl)
      (by rw [line, set]) (by rw [line, set]) position last
    refine ⟨?_, ?_⟩
    · rw [evaluated, lineConds]
      exact (line i).trans set
    · rw [presentsUnset, isPlaced, decide_eq_true same, Dial.isSet_iff.mpr ⟨position, last, dial⟩]
      exact Bool.and_false _
  · have notSet : l.dial.isSet = false := Bool.eq_false_iff.mpr fun isSet => by
      obtain ⟨n, p, dial⟩ := Dial.isSet_iff.mp isSet
      exact notAt n p dial
    refine ⟨?_, reasons _ (by rw [on, isPlaced, notSet, Bool.and_false]; rfl) (if_pos same)⟩
    rw [lineConds]
    exact (line i).trans (State.resumedLine_unset same on notSet)
  · refine ⟨?_, reasons _ (by rw [on, isPlaced, decide_eq_false changed]; rfl) (if_neg changed)⟩
    rw [lineConds]
    exact (line i).trans (State.resumedLine_rekinded changed on)
  · refine ⟨by rw [presentsUnset, off]; rfl, ?_⟩
    rw [lineConds]
    exact (line i).trans (State.resumedLine_off off)

end Sys2Proof.Machine
end
